-- ==== Sys2Proof/Word.lean ====
section
/-!
DEFINITION. The machine's words, by the widths the spec gives them (spec/00_scope.md R7 and R8).
-/

namespace Sys2Proof

/-- One byte of memory, of an instruction or of a device stream: the smallest addressable unit (R50). -/
abbrev Byte := BitVec 8

/-- A 24-bit integer register, word of memory or computed address (R7, R23, R51). -/
abbrev Word := BitVec 24

/-- The floating register's opaque 48-bit pattern (R37). -/
abbrev FloatPattern := BitVec 48

/-- A format 2 register field, `r1` or `r2` (R76). -/
abbrev RegField := BitVec 4

end Sys2Proof
end

