-- ==== Sys2Proof/Config.lean ====
section
/-!
DEFINITION. What the spec fixes for this hardware (R7, R59), and the two parameters it leaves OPEN that a step reads:
these have no body, so nothing proved of the model rests on a value of them. The other OPEN parameters of R7
(`init_regs`, `PC0`, `devices`, `load_extent`, `step_limit`) are arguments of `Machine.Launch` and `Machine.runToHalt`.
-/

namespace Sys2Proof

/-- The two readings of an immediate operand's value that the spec leaves open (R87). -/
inductive ImmediateValueSource where
  /-- The displacement or address field itself, zero extended; b, p and x do not take part. -/
  | field
  /-- The effective address. -/
  | target
  deriving DecidableEq, Repr, Inhabited

namespace Config

/-- `MEM_SIZE`: memory is the addresses 0x0000 to 0xFFFF (R7, R50). -/
abbrev memSize : Nat := 0x10000

/-- How many device ids a byte can name (R39, R50). -/
abbrev deviceCount : Nat := 256

/-- `FILL`: what every byte of memory reads as that no Text record and no store wrote (R7, R59). -/
abbrev fillByte : Byte := 0xFF#8

/-- `HALT_PC`: the sentinel that halts the machine when PC reaches it (R7, R275). -/
abbrev haltPc : Word := 0xFFFFFF#24

/-- L at launch, the sentinel "no caller" return address (R26, R43). -/
abbrev initialL : Word := 0xFFFFFF#24

/-- `IMMEDIATE_VALUE_SOURCE`, OPEN (R7, R87): a FREE VALUE, log entry 7. -/
opaque immediateValueSource : ImmediateValueSource

/-- `td_ready`, OPEN (R7, R168): the answer to the n-th readiness draw of a device, a FREE VALUE, log entry 8. -/
opaque tdReady : Byte → Nat → Bool

end Config
end Sys2Proof
end

