-- ==== Sys2Proof/Syntax.lean ====
section
/-!
DEFINITION. Syntax: the instructions (spec/30_encoding.md sections 2 to 7), one constructor of `Instr` for each row of
spec/opcode_table.json, their operands, and the record the boundary list holds for each of them (R40, R91).
-/

namespace Sys2Proof

/-- The instruction formats; a format's number is its length in bytes (R74). -/
inductive Format where
  | one
  | two
  | three
  | four
  deriving DecidableEq, Repr

/-- The length in bytes equals the format number (R74). -/
def Format.length : Format → Nat
  | .one => 1
  | .two => 2
  | .three => 3
  | .four => 4

/-- The six flags n, i, x, b, p and e of a decoded instruction (R77 to R79). -/
structure Nixbpe where
  n : Bool
  i : Bool
  x : Bool
  b : Bool
  p : Bool
  e : Bool
  deriving DecidableEq, Repr

/-- The address field of a format 3/4 instruction. The flag e says which one it is (R73, R77, R78), so e is not held twice. -/
inductive AddressField where
  /-- Format 3, e = 0: the 12-bit displacement `disp12`. -/
  | disp12 (v : BitVec 12)
  /-- Format 4, e = 1: the 20-bit address `addr20`. -/
  | addr20 (v : BitVec 20)
  deriving DecidableEq, Repr

/-- The operand of a format 3/4 instruction: its flags and its address field (R77, R78). -/
structure MemOperand where
  n : Bool
  i : Bool
  x : Bool
  b : Bool
  p : Bool
  field : AddressField
  deriving DecidableEq, Repr

/-- The format an operand's address field belongs to: 3 when e = 0, 4 when e = 1 (R73). -/
def MemOperand.format (d : MemOperand) : Format :=
  match d.field with
  | .disp12 _ => .three
  | .addr20 _ => .four

/-- The flag e, which chooses format 4 (R73). -/
def MemOperand.e (d : MemOperand) : Bool :=
  match d.field with
  | .disp12 _ => false
  | .addr20 _ => true

/-- The flags of a format 3/4 instruction (R77, R78). -/
def MemOperand.flags (d : MemOperand) : Nixbpe :=
  { n := d.n, i := d.i, x := d.x, b := d.b, p := d.p, e := d.e }

/-- The length in bytes of the instruction that carries the operand (R74). -/
def MemOperand.length (d : MemOperand) : Nat := d.format.length

/-- The 59 mnemonics of R93. An opcode value with no mnemonic (NONE, R80) is `none` in `Option Mnemonic`. -/
inductive Mnemonic where
  | lda | ldx | ldl | sta | stx | stl | add | sub | mul | div | comp | tix | jeq | jgt | jlt | j | and | or | jsub
  | rsub | ldch | stch | addf | subf | mulf | divf | ldb | lds | ldf | ldt | stb | sts | stf | stt | compf | addr
  | subr | mulr | divr | compr | shiftl | shiftr | rmo | svc | clear | tixr | float | fix | norm | lps | sti | rd
  | wd | td | stsw | ssk | sio | hio | tio
  deriving DecidableEq, Repr

/-- The instructions, one constructor for each row of spec/opcode_table.json. A name with a final `E` is the format 4 row
(`+LDA` is `ldaE`); `none8C` and its like are the rows of the opcode values that have no mnemonic (R80, R221).
The two low bits of byte_0 of a format 1 or 2 instruction select nothing and are no operand (R71). -/
inductive Instr where
  /-- LDA: opcode 0x00, format 3 (R120). -/
  | lda (d : MemOperand)
  /-- +LDA: opcode 0x00, format 4 (R120). -/
  | ldaE (d : MemOperand)
  /-- LDX: opcode 0x04, format 3 (R181). -/
  | ldx (d : MemOperand)
  /-- +LDX: opcode 0x04, format 4 (R181). -/
  | ldxE (d : MemOperand)
  /-- LDL: opcode 0x08, format 3 (R182). -/
  | ldl (d : MemOperand)
  /-- +LDL: opcode 0x08, format 4 (R182). -/
  | ldlE (d : MemOperand)
  /-- STA: opcode 0x0C, format 3 (R123). -/
  | sta (d : MemOperand)
  /-- +STA: opcode 0x0C, format 4 (R123). -/
  | staE (d : MemOperand)
  /-- STX: opcode 0x10, format 3 (R125). -/
  | stx (d : MemOperand)
  /-- +STX: opcode 0x10, format 4 (R125). -/
  | stxE (d : MemOperand)
  /-- STL: opcode 0x14, format 3 (R124). -/
  | stl (d : MemOperand)
  /-- +STL: opcode 0x14, format 4 (R124). -/
  | stlE (d : MemOperand)
  /-- ADD: opcode 0x18, format 3 (R183). -/
  | add (d : MemOperand)
  /-- +ADD: opcode 0x18, format 4 (R183). -/
  | addE (d : MemOperand)
  /-- SUB: opcode 0x1C, format 3 (R184). -/
  | sub (d : MemOperand)
  /-- +SUB: opcode 0x1C, format 4 (R184). -/
  | subE (d : MemOperand)
  /-- MUL: opcode 0x20, format 3 (R185). -/
  | mul (d : MemOperand)
  /-- +MUL: opcode 0x20, format 4 (R185). -/
  | mulE (d : MemOperand)
  /-- DIV: opcode 0x24, format 3 (R186). -/
  | div (d : MemOperand)
  /-- +DIV: opcode 0x24, format 4 (R186). -/
  | divE (d : MemOperand)
  /-- COMP: opcode 0x28, format 3 (R140). -/
  | comp (d : MemOperand)
  /-- +COMP: opcode 0x28, format 4 (R140). -/
  | compE (d : MemOperand)
  /-- TIX: opcode 0x2C, format 3 (R187). -/
  | tix (d : MemOperand)
  /-- +TIX: opcode 0x2C, format 4 (R187). -/
  | tixE (d : MemOperand)
  /-- JEQ: opcode 0x30, format 3 (R142). -/
  | jeq (d : MemOperand)
  /-- +JEQ: opcode 0x30, format 4 (R142). -/
  | jeqE (d : MemOperand)
  /-- JGT: opcode 0x34, format 3 (R188). -/
  | jgt (d : MemOperand)
  /-- +JGT: opcode 0x34, format 4 (R188). -/
  | jgtE (d : MemOperand)
  /-- JLT: opcode 0x38, format 3 (R143). -/
  | jlt (d : MemOperand)
  /-- +JLT: opcode 0x38, format 4 (R143). -/
  | jltE (d : MemOperand)
  /-- J: opcode 0x3C, format 3 (R141). -/
  | j (d : MemOperand)
  /-- +J: opcode 0x3C, format 4 (R141). -/
  | jE (d : MemOperand)
  /-- AND: opcode 0x40, format 3 (R189). -/
  | and (d : MemOperand)
  /-- +AND: opcode 0x40, format 4 (R189). -/
  | andE (d : MemOperand)
  /-- OR: opcode 0x44, format 3 (R190). -/
  | or (d : MemOperand)
  /-- +OR: opcode 0x44, format 4 (R190). -/
  | orE (d : MemOperand)
  /-- JSUB: opcode 0x48, format 3 (R144). -/
  | jsub (d : MemOperand)
  /-- +JSUB: opcode 0x48, format 4 (R144). -/
  | jsubE (d : MemOperand)
  /-- RSUB: opcode 0x4C, format 3 (R145). -/
  | rsub (d : MemOperand)
  /-- +RSUB: opcode 0x4C, format 4 (R145). -/
  | rsubE (d : MemOperand)
  /-- LDCH: opcode 0x50, format 3 (R122). -/
  | ldch (d : MemOperand)
  /-- +LDCH: opcode 0x50, format 4 (R122). -/
  | ldchE (d : MemOperand)
  /-- STCH: opcode 0x54, format 3 (R126). -/
  | stch (d : MemOperand)
  /-- +STCH: opcode 0x54, format 4 (R126). -/
  | stchE (d : MemOperand)
  /-- ADDF: opcode 0x58, format 3 (R191). -/
  | addf (d : MemOperand)
  /-- +ADDF: opcode 0x58, format 4 (R191). -/
  | addfE (d : MemOperand)
  /-- SUBF: opcode 0x5C, format 3 (R192). -/
  | subf (d : MemOperand)
  /-- +SUBF: opcode 0x5C, format 4 (R192). -/
  | subfE (d : MemOperand)
  /-- MULF: opcode 0x60, format 3 (R193). -/
  | mulf (d : MemOperand)
  /-- +MULF: opcode 0x60, format 4 (R193). -/
  | mulfE (d : MemOperand)
  /-- DIVF: opcode 0x64, format 3 (R194). -/
  | divf (d : MemOperand)
  /-- +DIVF: opcode 0x64, format 4 (R194). -/
  | divfE (d : MemOperand)
  /-- LDB: opcode 0x68, format 3 (R195). -/
  | ldb (d : MemOperand)
  /-- +LDB: opcode 0x68, format 4 (R195). -/
  | ldbE (d : MemOperand)
  /-- LDS: opcode 0x6C, format 3 (R196). -/
  | lds (d : MemOperand)
  /-- +LDS: opcode 0x6C, format 4 (R196). -/
  | ldsE (d : MemOperand)
  /-- LDF: opcode 0x70, format 3 (R197). -/
  | ldf (d : MemOperand)
  /-- +LDF: opcode 0x70, format 4 (R197). -/
  | ldfE (d : MemOperand)
  /-- LDT: opcode 0x74, format 3 (R121). -/
  | ldt (d : MemOperand)
  /-- +LDT: opcode 0x74, format 4 (R121). -/
  | ldtE (d : MemOperand)
  /-- STB: opcode 0x78, format 3 (R198). -/
  | stb (d : MemOperand)
  /-- +STB: opcode 0x78, format 4 (R198). -/
  | stbE (d : MemOperand)
  /-- STS: opcode 0x7C, format 3 (R199). -/
  | sts (d : MemOperand)
  /-- +STS: opcode 0x7C, format 4 (R199). -/
  | stsE (d : MemOperand)
  /-- STF: opcode 0x80, format 3 (R200). -/
  | stf (d : MemOperand)
  /-- +STF: opcode 0x80, format 4 (R200). -/
  | stfE (d : MemOperand)
  /-- STT: opcode 0x84, format 3 (R201). -/
  | stt (d : MemOperand)
  /-- +STT: opcode 0x84, format 4 (R201). -/
  | sttE (d : MemOperand)
  /-- COMPF: opcode 0x88, format 3 (R202). -/
  | compf (d : MemOperand)
  /-- +COMPF: opcode 0x88, format 4 (R202). -/
  | compfE (d : MemOperand)
  /-- ADDR: opcode 0x90, format 2 (R203). -/
  | addr (r1 r2 : RegField)
  /-- SUBR: opcode 0x94, format 2 (R204). -/
  | subr (r1 r2 : RegField)
  /-- MULR: opcode 0x98, format 2 (R205). -/
  | mulr (r1 r2 : RegField)
  /-- DIVR: opcode 0x9C, format 2 (R206). -/
  | divr (r1 r2 : RegField)
  /-- COMPR: opcode 0xA0, format 2 (R111). -/
  | compr (r1 r2 : RegField)
  /-- SHIFTL: opcode 0xA4, format 2 (R207). -/
  | shiftl (r1 r2 : RegField)
  /-- SHIFTR: opcode 0xA8, format 2 (R208). -/
  | shiftr (r1 r2 : RegField)
  /-- RMO: opcode 0xAC, format 2 (R209). -/
  | rmo (r1 r2 : RegField)
  /-- SVC: opcode 0xB0, format 2 (R210). -/
  | svc (r1 r2 : RegField)
  /-- CLEAR: opcode 0xB4, format 2 (R110). -/
  | clear (r1 r2 : RegField)
  /-- TIXR: opcode 0xB8, format 2 (R112). -/
  | tixr (r1 r2 : RegField)
  /-- FLOAT: opcode 0xC0, format 1 (R211). -/
  | float
  /-- FIX: opcode 0xC4, format 1 (R212). -/
  | fix
  /-- NORM: opcode 0xC8, format 1 (R213). -/
  | norm
  /-- LPS: opcode 0xD0, format 3 (R214). -/
  | lps (d : MemOperand)
  /-- +LPS: opcode 0xD0, format 4 (R214). -/
  | lpsE (d : MemOperand)
  /-- STI: opcode 0xD4, format 3 (R215). -/
  | sti (d : MemOperand)
  /-- +STI: opcode 0xD4, format 4 (R215). -/
  | stiE (d : MemOperand)
  /-- RD: opcode 0xD8, format 3 (R161). -/
  | rd (d : MemOperand)
  /-- +RD: opcode 0xD8, format 4 (R161). -/
  | rdE (d : MemOperand)
  /-- WD: opcode 0xDC, format 3 (R162). -/
  | wd (d : MemOperand)
  /-- +WD: opcode 0xDC, format 4 (R162). -/
  | wdE (d : MemOperand)
  /-- TD: opcode 0xE0, format 3 (R160). -/
  | td (d : MemOperand)
  /-- +TD: opcode 0xE0, format 4 (R160). -/
  | tdE (d : MemOperand)
  /-- STSW: opcode 0xE8, format 3 (R216). -/
  | stsw (d : MemOperand)
  /-- +STSW: opcode 0xE8, format 4 (R216). -/
  | stswE (d : MemOperand)
  /-- SSK: opcode 0xEC, format 3 (R217). -/
  | ssk (d : MemOperand)
  /-- +SSK: opcode 0xEC, format 4 (R217). -/
  | sskE (d : MemOperand)
  /-- SIO: opcode 0xF0, format 1 (R218). -/
  | sio
  /-- HIO: opcode 0xF4, format 1 (R219). -/
  | hio
  /-- TIO: opcode 0xF8, format 1 (R220). -/
  | tio
  /-- none_8C: opcode 0x8C, format 3 (R221). -/
  | none8C (d : MemOperand)
  /-- none_8C__e_1: opcode 0x8C, format 4 (R221). -/
  | none8CE (d : MemOperand)
  /-- none_BC: opcode 0xBC, format 3 (R221). -/
  | noneBC (d : MemOperand)
  /-- none_BC__e_1: opcode 0xBC, format 4 (R221). -/
  | noneBCE (d : MemOperand)
  /-- none_CC: opcode 0xCC, format 3 (R221). -/
  | noneCC (d : MemOperand)
  /-- none_CC__e_1: opcode 0xCC, format 4 (R221). -/
  | noneCCE (d : MemOperand)
  /-- none_E4: opcode 0xE4, format 3 (R221). -/
  | noneE4 (d : MemOperand)
  /-- none_E4__e_1: opcode 0xE4, format 4 (R221). -/
  | noneE4E (d : MemOperand)
  /-- none_FC: opcode 0xFC, format 3 (R221). -/
  | noneFC (d : MemOperand)
  /-- none_FC__e_1: opcode 0xFC, format 4 (R221). -/
  | noneFCE (d : MemOperand)
  deriving DecidableEq, Repr

/-- The operands an instruction carries, by shape: none, two register fields, or a format 3/4 operand. -/
inductive Operands where
  | none
  | regs (r1 r2 : RegField)
  | mem (d : MemOperand)
  deriving DecidableEq, Repr

/-- An instruction's operands. -/
def Instr.operands : Instr → Operands
  | .lda d => .mem d
  | .ldaE d => .mem d
  | .ldx d => .mem d
  | .ldxE d => .mem d
  | .ldl d => .mem d
  | .ldlE d => .mem d
  | .sta d => .mem d
  | .staE d => .mem d
  | .stx d => .mem d
  | .stxE d => .mem d
  | .stl d => .mem d
  | .stlE d => .mem d
  | .add d => .mem d
  | .addE d => .mem d
  | .sub d => .mem d
  | .subE d => .mem d
  | .mul d => .mem d
  | .mulE d => .mem d
  | .div d => .mem d
  | .divE d => .mem d
  | .comp d => .mem d
  | .compE d => .mem d
  | .tix d => .mem d
  | .tixE d => .mem d
  | .jeq d => .mem d
  | .jeqE d => .mem d
  | .jgt d => .mem d
  | .jgtE d => .mem d
  | .jlt d => .mem d
  | .jltE d => .mem d
  | .j d => .mem d
  | .jE d => .mem d
  | .and d => .mem d
  | .andE d => .mem d
  | .or d => .mem d
  | .orE d => .mem d
  | .jsub d => .mem d
  | .jsubE d => .mem d
  | .rsub d => .mem d
  | .rsubE d => .mem d
  | .ldch d => .mem d
  | .ldchE d => .mem d
  | .stch d => .mem d
  | .stchE d => .mem d
  | .addf d => .mem d
  | .addfE d => .mem d
  | .subf d => .mem d
  | .subfE d => .mem d
  | .mulf d => .mem d
  | .mulfE d => .mem d
  | .divf d => .mem d
  | .divfE d => .mem d
  | .ldb d => .mem d
  | .ldbE d => .mem d
  | .lds d => .mem d
  | .ldsE d => .mem d
  | .ldf d => .mem d
  | .ldfE d => .mem d
  | .ldt d => .mem d
  | .ldtE d => .mem d
  | .stb d => .mem d
  | .stbE d => .mem d
  | .sts d => .mem d
  | .stsE d => .mem d
  | .stf d => .mem d
  | .stfE d => .mem d
  | .stt d => .mem d
  | .sttE d => .mem d
  | .compf d => .mem d
  | .compfE d => .mem d
  | .addr r1 r2 => .regs r1 r2
  | .subr r1 r2 => .regs r1 r2
  | .mulr r1 r2 => .regs r1 r2
  | .divr r1 r2 => .regs r1 r2
  | .compr r1 r2 => .regs r1 r2
  | .shiftl r1 r2 => .regs r1 r2
  | .shiftr r1 r2 => .regs r1 r2
  | .rmo r1 r2 => .regs r1 r2
  | .svc r1 r2 => .regs r1 r2
  | .clear r1 r2 => .regs r1 r2
  | .tixr r1 r2 => .regs r1 r2
  | .float => .none
  | .fix => .none
  | .norm => .none
  | .lps d => .mem d
  | .lpsE d => .mem d
  | .sti d => .mem d
  | .stiE d => .mem d
  | .rd d => .mem d
  | .rdE d => .mem d
  | .wd d => .mem d
  | .wdE d => .mem d
  | .td d => .mem d
  | .tdE d => .mem d
  | .stsw d => .mem d
  | .stswE d => .mem d
  | .ssk d => .mem d
  | .sskE d => .mem d
  | .sio => .none
  | .hio => .none
  | .tio => .none
  | .none8C d => .mem d
  | .none8CE d => .mem d
  | .noneBC d => .mem d
  | .noneBCE d => .mem d
  | .noneCC d => .mem d
  | .noneCCE d => .mem d
  | .noneE4 d => .mem d
  | .noneE4E d => .mem d
  | .noneFC d => .mem d
  | .noneFCE d => .mem d

/-- The format of an instruction's row in spec/opcode_table.json (R72, R73, R93). -/
def Instr.format : Instr → Format
  | .lda _ => .three
  | .ldaE _ => .four
  | .ldx _ => .three
  | .ldxE _ => .four
  | .ldl _ => .three
  | .ldlE _ => .four
  | .sta _ => .three
  | .staE _ => .four
  | .stx _ => .three
  | .stxE _ => .four
  | .stl _ => .three
  | .stlE _ => .four
  | .add _ => .three
  | .addE _ => .four
  | .sub _ => .three
  | .subE _ => .four
  | .mul _ => .three
  | .mulE _ => .four
  | .div _ => .three
  | .divE _ => .four
  | .comp _ => .three
  | .compE _ => .four
  | .tix _ => .three
  | .tixE _ => .four
  | .jeq _ => .three
  | .jeqE _ => .four
  | .jgt _ => .three
  | .jgtE _ => .four
  | .jlt _ => .three
  | .jltE _ => .four
  | .j _ => .three
  | .jE _ => .four
  | .and _ => .three
  | .andE _ => .four
  | .or _ => .three
  | .orE _ => .four
  | .jsub _ => .three
  | .jsubE _ => .four
  | .rsub _ => .three
  | .rsubE _ => .four
  | .ldch _ => .three
  | .ldchE _ => .four
  | .stch _ => .three
  | .stchE _ => .four
  | .addf _ => .three
  | .addfE _ => .four
  | .subf _ => .three
  | .subfE _ => .four
  | .mulf _ => .three
  | .mulfE _ => .four
  | .divf _ => .three
  | .divfE _ => .four
  | .ldb _ => .three
  | .ldbE _ => .four
  | .lds _ => .three
  | .ldsE _ => .four
  | .ldf _ => .three
  | .ldfE _ => .four
  | .ldt _ => .three
  | .ldtE _ => .four
  | .stb _ => .three
  | .stbE _ => .four
  | .sts _ => .three
  | .stsE _ => .four
  | .stf _ => .three
  | .stfE _ => .four
  | .stt _ => .three
  | .sttE _ => .four
  | .compf _ => .three
  | .compfE _ => .four
  | .addr _ _ => .two
  | .subr _ _ => .two
  | .mulr _ _ => .two
  | .divr _ _ => .two
  | .compr _ _ => .two
  | .shiftl _ _ => .two
  | .shiftr _ _ => .two
  | .rmo _ _ => .two
  | .svc _ _ => .two
  | .clear _ _ => .two
  | .tixr _ _ => .two
  | .float => .one
  | .fix => .one
  | .norm => .one
  | .lps _ => .three
  | .lpsE _ => .four
  | .sti _ => .three
  | .stiE _ => .four
  | .rd _ => .three
  | .rdE _ => .four
  | .wd _ => .three
  | .wdE _ => .four
  | .td _ => .three
  | .tdE _ => .four
  | .stsw _ => .three
  | .stswE _ => .four
  | .ssk _ => .three
  | .sskE _ => .four
  | .sio => .one
  | .hio => .one
  | .tio => .one
  | .none8C _ => .three
  | .none8CE _ => .four
  | .noneBC _ => .three
  | .noneBCE _ => .four
  | .noneCC _ => .three
  | .noneCCE _ => .four
  | .noneE4 _ => .three
  | .noneE4E _ => .four
  | .noneFC _ => .three
  | .noneFCE _ => .four

/-- The length of an instruction in bytes (R74). -/
def Instr.length (i : Instr) : Nat := i.format.length

/-- The flags the decoder reports: all zero for formats 1 and 2 (R79). -/
def Instr.flags (i : Instr) : Nixbpe :=
  match i.operands with
  | .mem d => d.flags
  | .none | .regs _ _ => { n := false, i := false, x := false, b := false, p := false, e := false }

/-- The record of one instruction boundary, as the loader's Pass 3 makes it and the boundary list holds it (R40, R91). -/
structure DecodedInstruction where
  address : Word
  rawBytes : List Byte
  /-- `none` is the spec's NONE (R80). -/
  mnemonic : Option Mnemonic
  opcode : Byte
  format : Format
  flags : Nixbpe
  deriving DecidableEq, Repr

/-- The recorded length of an instruction, `rec.len` of R276 (R74). -/
def DecodedInstruction.length (r : DecodedInstruction) : Nat := r.format.length

end Sys2Proof
end

