-- ==== Sys2Proof/WellFormed.lean ====
section
/-!
DEFINITION. Well-formed instructions. An instruction is a row of spec/opcode_table.json with its operands; the one thing
the types leave open is that a format 3 row carries a 12-bit displacement (e = 0) and a format 4 row a 20-bit address (e = 1).
Every bit pattern of the flags, of the address field and of the register fields is a well-formed operand: the decoder
refuses none of them (R91, R94).
-/

namespace Sys2Proof

/-- The row's format is the one its operands belong to (R72, R73). -/
def Instr.wellFormed (i : Instr) : Bool :=
  match i.format, i.operands with
  | .one, .none => true
  | .two, .regs _ _ => true
  | .three, .mem d => d.format == .three
  | .four, .mem d => d.format == .four
  | _, _ => false

end Sys2Proof
end

