-- ==== Sys2Proof/Decode.lean ====
section
/-!
DEFINITION. The decoder (spec/30_encoding.md R71 to R80, R91 to R95), total on any bytes, and after it the encoder.
The effective address and the other decoder outputs that need registers are in Machine/Operands.lean.
-/

namespace Sys2Proof

/-- Why bytes give no instruction. -/
inductive DecodeError where
  /-- There are fewer bytes than the instruction's own length: at least `need` are wanted (R91). -/
  | truncated (need : Nat)
  /-- The value is no opcode of R93. Raised by nobody: R93 gives a row to every value of byte_0 AND 0xFC
  (`Laws.opcodeRow_total`). -/
  | notAnOpcode (value : Byte)
  deriving DecidableEq, Repr

/-- What an opcode stands for, by its format class (R72): an instruction of format 1, one of format 2, or the pair of a
format 3 and a format 4 instruction. -/
inductive OpcodeRow where
  | one (i : Instr)
  | two (make : RegField → RegField → Instr)
  | threeFour (make3 make4 : MemOperand → Instr)

/-- opcode = byte_0 AND 0xFC (R71). -/
def opcodeOf (byte0 : Byte) : Byte := byte0 &&& 0xFC#8

/-- The opcode map of R93, with the five opcode values that have no mnemonic (R80). -/
def opcodeRow (op : Byte) : Option OpcodeRow :=
  match op with
  | 0x00#8 => some (.threeFour .lda .ldaE)
  | 0x04#8 => some (.threeFour .ldx .ldxE)
  | 0x08#8 => some (.threeFour .ldl .ldlE)
  | 0x0C#8 => some (.threeFour .sta .staE)
  | 0x10#8 => some (.threeFour .stx .stxE)
  | 0x14#8 => some (.threeFour .stl .stlE)
  | 0x18#8 => some (.threeFour .add .addE)
  | 0x1C#8 => some (.threeFour .sub .subE)
  | 0x20#8 => some (.threeFour .mul .mulE)
  | 0x24#8 => some (.threeFour .div .divE)
  | 0x28#8 => some (.threeFour .comp .compE)
  | 0x2C#8 => some (.threeFour .tix .tixE)
  | 0x30#8 => some (.threeFour .jeq .jeqE)
  | 0x34#8 => some (.threeFour .jgt .jgtE)
  | 0x38#8 => some (.threeFour .jlt .jltE)
  | 0x3C#8 => some (.threeFour .j .jE)
  | 0x40#8 => some (.threeFour .and .andE)
  | 0x44#8 => some (.threeFour .or .orE)
  | 0x48#8 => some (.threeFour .jsub .jsubE)
  | 0x4C#8 => some (.threeFour .rsub .rsubE)
  | 0x50#8 => some (.threeFour .ldch .ldchE)
  | 0x54#8 => some (.threeFour .stch .stchE)
  | 0x58#8 => some (.threeFour .addf .addfE)
  | 0x5C#8 => some (.threeFour .subf .subfE)
  | 0x60#8 => some (.threeFour .mulf .mulfE)
  | 0x64#8 => some (.threeFour .divf .divfE)
  | 0x68#8 => some (.threeFour .ldb .ldbE)
  | 0x6C#8 => some (.threeFour .lds .ldsE)
  | 0x70#8 => some (.threeFour .ldf .ldfE)
  | 0x74#8 => some (.threeFour .ldt .ldtE)
  | 0x78#8 => some (.threeFour .stb .stbE)
  | 0x7C#8 => some (.threeFour .sts .stsE)
  | 0x80#8 => some (.threeFour .stf .stfE)
  | 0x84#8 => some (.threeFour .stt .sttE)
  | 0x88#8 => some (.threeFour .compf .compfE)
  | 0x8C#8 => some (.threeFour .none8C .none8CE)
  | 0x90#8 => some (.two .addr)
  | 0x94#8 => some (.two .subr)
  | 0x98#8 => some (.two .mulr)
  | 0x9C#8 => some (.two .divr)
  | 0xA0#8 => some (.two .compr)
  | 0xA4#8 => some (.two .shiftl)
  | 0xA8#8 => some (.two .shiftr)
  | 0xAC#8 => some (.two .rmo)
  | 0xB0#8 => some (.two .svc)
  | 0xB4#8 => some (.two .clear)
  | 0xB8#8 => some (.two .tixr)
  | 0xBC#8 => some (.threeFour .noneBC .noneBCE)
  | 0xC0#8 => some (.one .float)
  | 0xC4#8 => some (.one .fix)
  | 0xC8#8 => some (.one .norm)
  | 0xCC#8 => some (.threeFour .noneCC .noneCCE)
  | 0xD0#8 => some (.threeFour .lps .lpsE)
  | 0xD4#8 => some (.threeFour .sti .stiE)
  | 0xD8#8 => some (.threeFour .rd .rdE)
  | 0xDC#8 => some (.threeFour .wd .wdE)
  | 0xE0#8 => some (.threeFour .td .tdE)
  | 0xE4#8 => some (.threeFour .noneE4 .noneE4E)
  | 0xE8#8 => some (.threeFour .stsw .stswE)
  | 0xEC#8 => some (.threeFour .ssk .sskE)
  | 0xF0#8 => some (.one .sio)
  | 0xF4#8 => some (.one .hio)
  | 0xF8#8 => some (.one .tio)
  | 0xFC#8 => some (.threeFour .noneFC .noneFCE)
  | _ => none

/-- MNEMONIC(opcode), the mnemonic column of R93; `none` is NONE (R80). -/
def Mnemonic.ofOpcode (op : Byte) : Option Mnemonic :=
  match op with
  | 0x00#8 => some .lda
  | 0x04#8 => some .ldx
  | 0x08#8 => some .ldl
  | 0x0C#8 => some .sta
  | 0x10#8 => some .stx
  | 0x14#8 => some .stl
  | 0x18#8 => some .add
  | 0x1C#8 => some .sub
  | 0x20#8 => some .mul
  | 0x24#8 => some .div
  | 0x28#8 => some .comp
  | 0x2C#8 => some .tix
  | 0x30#8 => some .jeq
  | 0x34#8 => some .jgt
  | 0x38#8 => some .jlt
  | 0x3C#8 => some .j
  | 0x40#8 => some .and
  | 0x44#8 => some .or
  | 0x48#8 => some .jsub
  | 0x4C#8 => some .rsub
  | 0x50#8 => some .ldch
  | 0x54#8 => some .stch
  | 0x58#8 => some .addf
  | 0x5C#8 => some .subf
  | 0x60#8 => some .mulf
  | 0x64#8 => some .divf
  | 0x68#8 => some .ldb
  | 0x6C#8 => some .lds
  | 0x70#8 => some .ldf
  | 0x74#8 => some .ldt
  | 0x78#8 => some .stb
  | 0x7C#8 => some .sts
  | 0x80#8 => some .stf
  | 0x84#8 => some .stt
  | 0x88#8 => some .compf
  | 0x90#8 => some .addr
  | 0x94#8 => some .subr
  | 0x98#8 => some .mulr
  | 0x9C#8 => some .divr
  | 0xA0#8 => some .compr
  | 0xA4#8 => some .shiftl
  | 0xA8#8 => some .shiftr
  | 0xAC#8 => some .rmo
  | 0xB0#8 => some .svc
  | 0xB4#8 => some .clear
  | 0xB8#8 => some .tixr
  | 0xC0#8 => some .float
  | 0xC4#8 => some .fix
  | 0xC8#8 => some .norm
  | 0xD0#8 => some .lps
  | 0xD4#8 => some .sti
  | 0xD8#8 => some .rd
  | 0xDC#8 => some .wd
  | 0xE0#8 => some .td
  | 0xE8#8 => some .stsw
  | 0xEC#8 => some .ssk
  | 0xF0#8 => some .sio
  | 0xF4#8 => some .hio
  | 0xF8#8 => some .tio
  | _ => none

/-- The e flag's place, byte_1[4] (R73, R77; 90_conflicts.md C2). -/
def eBit (byte1 : Byte) : Bool := byte1.getLsbD 4

/-- The format, and so the length, from byte_0 and, for class 3/4, byte_1 (R72 to R74, R95). Class 3/4 takes every opcode
value outside the format 1 and format 2 sets (R72). -/
def formatOf (byte0 byte1 : Byte) : Format :=
  match opcodeRow (opcodeOf byte0) with
  | some (.one _) => .one
  | some (.two _) => .two
  | some (.threeFour _ _) | none => if eBit byte1 then .four else .three

/-- The operand of a format 3/4 instruction with the given address field: n and i are byte_0[1:0], x, b and p are
byte_1[7:5] (R77, R78). -/
def memOperandOf (byte0 byte1 : Byte) (field : AddressField) : MemOperand :=
  { n := byte0.getLsbD 1
    i := byte0.getLsbD 0
    x := byte1.getLsbD 7
    b := byte1.getLsbD 6
    p := byte1.getLsbD 5
    field := field }

/-- disp12 is byte_1[3:0] followed by byte_2 (R77). -/
def disp12Of (byte1 byte2 : Byte) : BitVec 12 := byte1.extractLsb' 0 4 ++ byte2

/-- addr20 is byte_1[3:0] followed by byte_2 and byte_3 (R78). -/
def addr20Of (byte1 byte2 byte3 : Byte) : BitVec 20 := byte1.extractLsb' 0 4 ++ (byte2 ++ byte3 : BitVec 16)

/-- The instruction at the head of a list of bytes, with the bytes after it (R92). -/
def decode (bytes : List Byte) : Except DecodeError (Instr × List Byte) :=
  match bytes with
  | [] => .error (.truncated 1)
  | byte0 :: rest =>
    match opcodeRow (opcodeOf byte0) with
    | none => .error (.notAnOpcode (opcodeOf byte0))
    | some (.one i) => .ok (i, rest)
    | some (.two make) =>
      match rest with
      | byte1 :: rest => .ok (make (byte1.extractLsb' 4 4) (byte1.extractLsb' 0 4), rest)
      | [] => .error (.truncated 2)
    | some (.threeFour make3 make4) =>
      match rest with
      | byte1 :: byte2 :: rest =>
        if eBit byte1 then
          match rest with
          | byte3 :: rest => .ok (make4 (memOperandOf byte0 byte1 (.addr20 (addr20Of byte1 byte2 byte3))), rest)
          | [] => .error (.truncated 4)
        else .ok (make3 (memOperandOf byte0 byte1 (.disp12 (disp12Of byte1 byte2))), rest)
      | _ => .error (.truncated 3)

/-- The opcode of an instruction's row (R93). -/
def Instr.opcode : Instr → Byte
  | .lda _ => 0x00#8
  | .ldaE _ => 0x00#8
  | .ldx _ => 0x04#8
  | .ldxE _ => 0x04#8
  | .ldl _ => 0x08#8
  | .ldlE _ => 0x08#8
  | .sta _ => 0x0C#8
  | .staE _ => 0x0C#8
  | .stx _ => 0x10#8
  | .stxE _ => 0x10#8
  | .stl _ => 0x14#8
  | .stlE _ => 0x14#8
  | .add _ => 0x18#8
  | .addE _ => 0x18#8
  | .sub _ => 0x1C#8
  | .subE _ => 0x1C#8
  | .mul _ => 0x20#8
  | .mulE _ => 0x20#8
  | .div _ => 0x24#8
  | .divE _ => 0x24#8
  | .comp _ => 0x28#8
  | .compE _ => 0x28#8
  | .tix _ => 0x2C#8
  | .tixE _ => 0x2C#8
  | .jeq _ => 0x30#8
  | .jeqE _ => 0x30#8
  | .jgt _ => 0x34#8
  | .jgtE _ => 0x34#8
  | .jlt _ => 0x38#8
  | .jltE _ => 0x38#8
  | .j _ => 0x3C#8
  | .jE _ => 0x3C#8
  | .and _ => 0x40#8
  | .andE _ => 0x40#8
  | .or _ => 0x44#8
  | .orE _ => 0x44#8
  | .jsub _ => 0x48#8
  | .jsubE _ => 0x48#8
  | .rsub _ => 0x4C#8
  | .rsubE _ => 0x4C#8
  | .ldch _ => 0x50#8
  | .ldchE _ => 0x50#8
  | .stch _ => 0x54#8
  | .stchE _ => 0x54#8
  | .addf _ => 0x58#8
  | .addfE _ => 0x58#8
  | .subf _ => 0x5C#8
  | .subfE _ => 0x5C#8
  | .mulf _ => 0x60#8
  | .mulfE _ => 0x60#8
  | .divf _ => 0x64#8
  | .divfE _ => 0x64#8
  | .ldb _ => 0x68#8
  | .ldbE _ => 0x68#8
  | .lds _ => 0x6C#8
  | .ldsE _ => 0x6C#8
  | .ldf _ => 0x70#8
  | .ldfE _ => 0x70#8
  | .ldt _ => 0x74#8
  | .ldtE _ => 0x74#8
  | .stb _ => 0x78#8
  | .stbE _ => 0x78#8
  | .sts _ => 0x7C#8
  | .stsE _ => 0x7C#8
  | .stf _ => 0x80#8
  | .stfE _ => 0x80#8
  | .stt _ => 0x84#8
  | .sttE _ => 0x84#8
  | .compf _ => 0x88#8
  | .compfE _ => 0x88#8
  | .addr _ _ => 0x90#8
  | .subr _ _ => 0x94#8
  | .mulr _ _ => 0x98#8
  | .divr _ _ => 0x9C#8
  | .compr _ _ => 0xA0#8
  | .shiftl _ _ => 0xA4#8
  | .shiftr _ _ => 0xA8#8
  | .rmo _ _ => 0xAC#8
  | .svc _ _ => 0xB0#8
  | .clear _ _ => 0xB4#8
  | .tixr _ _ => 0xB8#8
  | .float => 0xC0#8
  | .fix => 0xC4#8
  | .norm => 0xC8#8
  | .lps _ => 0xD0#8
  | .lpsE _ => 0xD0#8
  | .sti _ => 0xD4#8
  | .stiE _ => 0xD4#8
  | .rd _ => 0xD8#8
  | .rdE _ => 0xD8#8
  | .wd _ => 0xDC#8
  | .wdE _ => 0xDC#8
  | .td _ => 0xE0#8
  | .tdE _ => 0xE0#8
  | .stsw _ => 0xE8#8
  | .stswE _ => 0xE8#8
  | .ssk _ => 0xEC#8
  | .sskE _ => 0xEC#8
  | .sio => 0xF0#8
  | .hio => 0xF4#8
  | .tio => 0xF8#8
  | .none8C _ => 0x8C#8
  | .none8CE _ => 0x8C#8
  | .noneBC _ => 0xBC#8
  | .noneBCE _ => 0xBC#8
  | .noneCC _ => 0xCC#8
  | .noneCCE _ => 0xCC#8
  | .noneE4 _ => 0xE4#8
  | .noneE4E _ => 0xE4#8
  | .noneFC _ => 0xFC#8
  | .noneFCE _ => 0xFC#8

/-- The mnemonic of an instruction (R80, R93). -/
def Instr.mnemonic (i : Instr) : Option Mnemonic := Mnemonic.ofOpcode i.opcode

/-- byte_0 of a format 3/4 instruction: op in bits 7:2, then n and i (R77, R78). -/
def encodeByte0 (op : Byte) (d : MemOperand) : Byte :=
  op.extractLsb' 2 6 ++ (BitVec.ofBool d.n ++ BitVec.ofBool d.i : BitVec 2)

/-- byte_1 of a format 3/4 instruction: x, b, p and e in bits 7:4, then the top four bits of the address field (R77, R78). -/
def encodeByte1 (d : MemOperand) (top : BitVec 4) : Byte :=
  (BitVec.ofBool d.x ++ BitVec.ofBool d.b ++ BitVec.ofBool d.p ++ BitVec.ofBool d.e : BitVec 4) ++ top

/-- The bytes of an instruction, lowest address first (R75 to R78). The ignored bits of formats 1 and 2 are written 0 (R71;
log entry 22). -/
def encode (i : Instr) : List Byte :=
  match i.operands with
  | .none => [i.opcode]
  | .regs r1 r2 => [i.opcode, r1 ++ r2]
  | .mem d =>
    match d.field with
    | .disp12 v => [encodeByte0 i.opcode d, encodeByte1 d (v.extractLsb' 8 4), v.extractLsb' 0 8]
    | .addr20 v =>
      [encodeByte0 i.opcode d, encodeByte1 d (v.extractLsb' 16 4), v.extractLsb' 8 8, v.extractLsb' 0 8]

/-- The DecodedInstruction record of the bytes at address `a` (R91, R92). Its raw bytes are the instruction's own. -/
def recordOf (a : Word) (bytes : List Byte) : Except DecodeError DecodedInstruction :=
  match decode bytes with
  | .error e => .error e
  | .ok (i, _) =>
    .ok { address := a, rawBytes := bytes.take i.length, mnemonic := i.mnemonic, opcode := i.opcode,
          format := i.format, flags := i.flags }

/-- The longest instruction has four bytes (R74). -/
def maxLength : Nat := 4

/-- The bytes, lowest address first, of an instruction word of `nbits` bits as spec/opcode_table.json numbers it: byte_0 is the
most significant byte (R8, R93; log entry 14). Zero bytes follow up to the longest instruction. -/
def tableWordBytes (nbits w : Nat) : List Byte :=
  let n := (nbits + 7) / 8
  (List.range n).map (fun k => BitVec.ofNat 8 (w >>> (8 * (n - 1 - k)))) ++ List.replicate (maxLength - n) 0#8

/-- The instruction the decoder reads from a word of spec/opcode_table.json. -/
def decodeTableWord (nbits w : Nat) : Option Instr :=
  match decode (tableWordBytes nbits w) with
  | .ok (i, _) => some i
  | .error _ => none

end Sys2Proof
end

