-- ==== Sys2Proof/Machine/Sparse.lean ====
section
/-!
DEFINITION. Sparse data by key: a list of keys and values in ONE canonical form, with a value that every unlisted key reads
as. Memory (keys are addresses) and the device registry (keys are device ids) are both held so.
-/

namespace Sys2Proof.Machine

variable {α : Type}

/-- The value at a key: the listed one, or `default` where the key is not listed. -/
def Sparse.get (default : α) : List (Nat × α) → Nat → α
  | [], _ => default
  | (k, v) :: rest, key => if key = k then v else Sparse.get default rest key

/-- The list without the key. -/
def Sparse.erase : List (Nat × α) → Nat → List (Nat × α)
  | [], _ => []
  | (k, v) :: rest, key => if key = k then Sparse.erase rest key else (k, v) :: Sparse.erase rest key

/-- The list with an entry put before the first greater key. -/
def Sparse.insert : List (Nat × α) → Nat → α → List (Nat × α)
  | [], key, value => [(key, value)]
  | (k, v) :: rest, key, value =>
    if key < k then (key, value) :: (k, v) :: rest else (k, v) :: Sparse.insert rest key value

/-- Make a key read as a value. Writing the default removes the entry. -/
def Sparse.set [DecidableEq α] (default : α) (l : List (Nat × α)) (key : Nat) (value : α) : List (Nat × α) :=
  if value = default then Sparse.erase l key else Sparse.insert (Sparse.erase l key) key value

/-- The canonical form from key `low` on: keys strictly rising and below `bound`, no entry equal to the default. -/
def Sparse.wfFrom [DecidableEq α] (default : α) (bound : Nat) : Nat → List (Nat × α) → Bool
  | _, [] => true
  | low, (k, v) :: rest =>
    decide (low ≤ k) && decide (k < bound) && decide (v ≠ default) && Sparse.wfFrom default bound (k + 1) rest

/-- The canonical form. -/
def Sparse.wf [DecidableEq α] (default : α) (bound : Nat) (l : List (Nat × α)) : Bool :=
  Sparse.wfFrom default bound 0 l

end Sys2Proof.Machine
end

