-- ==== Sys2Proof/Machine/State.lean ====
section
/-!
DEFINITION. The machine's state as plain data (spec/10_state.md), the faults it records (spec/60_exceptions.md R231), the
reasons a step has no next state, and the state after reset (R43; log entries 1 to 6 and 8).
-/

namespace Sys2Proof.Machine

/-- The register file: the eight 24-bit integer registers and the floating register (R21, R37). -/
structure Regs where
  /-- The accumulator (R24). -/
  a : Word
  /-- The index register (R25). -/
  x : Word
  /-- The linkage register (R26). -/
  l : Word
  /-- The base register (R27). -/
  b : Word
  /-- A general register (R28). -/
  s : Word
  /-- A general register (R29). -/
  t : Word
  /-- The program counter (R34). -/
  pc : Word
  /-- The status word, the condition code (R30). -/
  sw : Word
  /-- The floating register, an opaque pattern (R37). -/
  f : FloatPattern
  deriving DecidableEq, Repr

/-- The 64 KiB memory (R38, R50): every byte that does not read as the fill byte, by address. -/
abbrev Memory := List Host.Cell

/-- The canonical form of memory: addresses strictly rising and inside 0x0000 to 0xFFFF, no entry equal to the fill byte,
which is what an unlisted address reads as (R59). -/
def Memory.wf (m : Memory) : Bool := Sparse.wf Config.fillByte Config.memSize m

/-- Which of RD and WD has touched a device in this launch (R39, R167). -/
inductive DeviceUse where
  /-- The spec's `none`. -/
  | unused
  | read
  | write
  deriving DecidableEq, Repr

/-- The record of one device (R39). -/
structure Device where
  /-- `avail(d)`: the host maps the id to an accessible stream (R166). -/
  avail : Bool
  /-- `in(d)`: the input byte sequence. -/
  input : List Byte
  /-- `rpos(d)`: the read cursor, an index into the input (R165). -/
  rpos : Nat
  /-- `out(d)`: the bytes WD appended in this launch (R169). -/
  out : List Byte
  /-- `used(d)` (R167). -/
  used : DeviceUse
  /-- The MODEL's own field: how many readiness answers of the device have been drawn (R168; log entry 8). -/
  polls : Nat
  deriving DecidableEq, Repr

/-- What an id stands for that the host maps to no stream: unavailable and untouched (R39, R43). -/
def Device.absent : Device :=
  { avail := false, input := [], rpos := 0, out := [], used := .unused, polls := 0 }

/-- The devices, by id: every record that is not the absent device. -/
abbrev Devices := List (Nat × Device)

/-- The canonical form of the device registry. -/
def Devices.wf (ds : Devices) : Bool := Sparse.wf Device.absent Config.deviceCount ds

/-- The spec's faults, with the information each records (R231). Raising one ends the run (R230, R244). The spec's own
`raise <Exception>(info)` (R9) gives the type its name. -/
inductive Exception where
  /-- An access touches an address outside memory; the access's start address (R232). -/
  | memoryFault (address : Word)
  /-- An instruction without semantics; its address and opcode (R233). -/
  | unknownMnemonic (address : Word) (opcode : Byte)
  /-- A step at a PC where no boundary starts (R234). -/
  | noInstructionAtAddress (pc : Word)
  /-- RD or WD names an unavailable device (R235). -/
  | deviceUnavailable (device : Byte)
  /-- runToHalt has executed its step limit (R236). -/
  | stepLimitExceeded (steps : Nat)
  /-- Mode IMMEDIATE on a store, a jump or a device instruction; its address and mnemonic (R237). -/
  | illegalAddressingMode (address : Word) (mnemonic : Mnemonic)
  /-- A format 2 field that names no register, or F where an integer is read; the address and the field (R238). -/
  | illegalRegister (address : Word) (number : RegField)
  /-- Memory differs from the recorded bytes at a boundary (R239). -/
  | selfModifiedInstruction (address : Word)
  /-- RD after WD or WD after RD on one device (R240). -/
  | deviceDirectionConflict (device : Byte)
  deriving DecidableEq, Repr

/-- The controller status (R41, R274). -/
inductive Status where
  /-- Initial PC set, nothing executed. -/
  | loaded
  /-- PC resolves to a known instruction. -/
  | running
  /-- PC reached the sentinel. -/
  | haltedOk
  /-- A fault ended the run. -/
  | haltedErr (e : Exception)
  deriving DecidableEq, Repr

/-- The machine state (R20). -/
structure State where
  regs : Regs
  mem : Memory
  dev : Devices
  /-- The boundary list, fixed for the whole run (R40). -/
  bounds : List DecodedInstruction
  status : Status
  /-- The count of instructions executed since launch (R42). -/
  steps : Nat
  deriving DecidableEq, Repr

/-- Why the machine has no next state although the spec gives every part of it a meaning. -/
inductive Fault where
  /-- `step` in a halted state: Halted is terminal and the spec's model has no step from it (R245; I16, stuck). SAFE: the
  machine does nothing there either. -/
  | halted
  deriving DecidableEq, Repr

/-- Why the model gives no meaning. -/
inductive Refusal where
  /-- An instruction whose meaning is not written yet, by its mnemonic. Raised by an arm of `exec` only; no arm does. SAFE. -/
  | notModelled (mnemonic : String)
  /-- The boundary record at the address holds too few raw bytes for the instruction they begin. Raised by `step`, in
  states whose boundary list no load makes (R91, R272; log entry 13). SAFE: the model stops. -/
  | undecodableRecord (address : Word)
  deriving DecidableEq, Repr

/-- The machine right after reset (R43), with no program loaded (R270; log entry 5): L is the sentinel, every byte of memory
reads 0xFF, the status is Loaded. A, X, B, S, T (log 1), SW (log 2), F (log 3), PC (log 4) and the devices (log 6, log 8)
are at the values the log names, which the spec leaves open. -/
def State.reset : State :=
  { regs := { a := 0#24, x := 0#24, l := Config.initialL, b := 0#24, s := 0#24, t := 0#24, pc := 0#24, sw := 0#24,
              f := 0#48 }
    mem := []
    dev := []
    bounds := []
    status := .loaded
    steps := 0 }

end Sys2Proof.Machine
end

