-- ==== Sys2Proof/Machine/Ops.lean ====
section
/-!
DEFINITION. The named operations over registers, memory and devices, and taking a fault. A meaning is written over these.
-/

namespace Sys2Proof.Machine

/-! ## Register updates (R23: a write keeps 24 bits, which the word type does) -/

def State.setA (s : State) (v : Word) : State := { s with regs := { s.regs with a := v } }
def State.setX (s : State) (v : Word) : State := { s with regs := { s.regs with x := v } }
def State.setL (s : State) (v : Word) : State := { s with regs := { s.regs with l := v } }
def State.setT (s : State) (v : Word) : State := { s with regs := { s.regs with t := v } }
def State.setPc (s : State) (v : Word) : State := { s with regs := { s.regs with pc := v } }
def State.setSw (s : State) (v : Word) : State := { s with regs := { s.regs with sw := v } }
def State.setRegs (s : State) (r : Regs) : State := { s with regs := r }
def State.setMem (s : State) (m : Memory) : State := { s with mem := m }
def State.setDev (s : State) (ds : Devices) : State := { s with dev := ds }
def State.setStatus (s : State) (st : Status) : State := { s with status := st }
def State.countStep (s : State) : State := { s with steps := s.steps + 1 }

/-- The state is Loaded or Running, so a step is enabled (R276). -/
def Status.enabled : Status → Bool
  | .loaded => true
  | .running => true
  | .haltedOk => false
  | .haltedErr _ => false

/-! ## Taking a fault -/

/-- The fault's numeric code (R231). -/
def Exception.code : Exception → Nat
  | .memoryFault _ => 1
  | .unknownMnemonic _ _ => 2
  | .noInstructionAtAddress _ => 3
  | .deviceUnavailable _ => 4
  | .stepLimitExceeded _ => 5
  | .illegalAddressingMode _ _ => 6
  | .illegalRegister _ _ => 7
  | .selfModifiedInstruction _ => 8
  | .deviceDirectionConflict _ => 9

/-- Taking a fault (R244): the status becomes Halted(err e) and nothing else changes. In particular PC keeps the value it had,
nothing is saved and control goes nowhere. There is no return from a fault (R245). -/
def State.raise (s : State) (e : Exception) : State := s.setStatus (.haltedErr e)

/-- End an instruction: commit its writes, or discard them all and take the fault (R276, R281). -/
def complete (s : State) (r : Except Exception State) : Host.Outcome State Fault Refusal :=
  match r with
  | .ok t => .next t
  | .error e => .next (s.raise e)

/-! ## Memory (spec/20_memory.md) -/

/-- One byte of memory. An address nothing wrote reads as the fill byte (R59). -/
def Memory.read (m : Memory) (address : Nat) : Byte := Sparse.get Config.fillByte m address

/-- Write one byte of memory. -/
def Memory.write (m : Memory) (address : Nat) (v : Byte) : Memory := Sparse.set Config.fillByte m address v

/-- The `n` bytes from an address on, lowest address first. -/
def Memory.readBytes (m : Memory) (address n : Nat) : List Byte :=
  (List.range n).map fun k => m.read (address + k)

/-- Write bytes from an address on, lowest address first. -/
def Memory.writeBytes (m : Memory) (address : Nat) : List Byte → Memory
  | [] => m
  | v :: rest => Memory.writeBytes (m.write address v) (address + 1) rest

/-- The word of three bytes, most significant first (R52). -/
def wordOfBytes (b0 b1 b2 : Byte) : Word := b0 ++ (b1 ++ b2 : BitVec 16)

/-- The three bytes of a word, most significant first (R52). -/
def wordBytes (v : Word) : List Byte := [v.extractLsb' 16 8, v.extractLsb' 8 8, v.extractLsb' 0 8]

/-- The word at an address, big-endian (R52). -/
def Memory.readWord (m : Memory) (address : Nat) : Word :=
  wordOfBytes (m.read address) (m.read (address + 1)) (m.read (address + 2))

/-- Every byte of an `n`-byte access at `address` lies below 0x10000 (R55). -/
def inMemory (address : Word) (n : Nat) : Bool := decide (address.toNat + n ≤ Config.memSize)

/-- `MemRead(a, 1)` (R55). -/
def memReadByte (s : State) (address : Word) : Except Exception Byte :=
  if inMemory address 1 then .ok (s.mem.read address.toNat) else .error (.memoryFault address)

/-- `MemRead(a, 3)` (R55). -/
def memReadWord (s : State) (address : Word) : Except Exception Word :=
  if inMemory address 3 then .ok (s.mem.readWord address.toNat) else .error (.memoryFault address)

/-- `MemWrite(a, 1, v)` (R55). -/
def memWriteByte (s : State) (address : Word) (v : Byte) : Except Exception State :=
  if inMemory address 1 then .ok (s.setMem (s.mem.write address.toNat v)) else .error (.memoryFault address)

/-- `MemWrite(a, 3, v)` (R55): all three bytes or none. -/
def memWriteWord (s : State) (address : Word) (v : Word) : Except Exception State :=
  if inMemory address 3 then .ok (s.setMem (s.mem.writeBytes address.toNat (wordBytes v)))
  else .error (.memoryFault address)

/-- The host's memory-range dump (R252). DESIGN CHOICE (log entry 26): R51 and R252 do not say what it gives for an address at or
above 0x10000; the model makes no bounds check and gives the fill byte there. -/
def memoryDump (s : State) (address n : Nat) : List Byte := s.mem.readBytes address n

/-! ## Devices (spec/43_device_io.md R163 to R170) -/

/-- The record of a device. -/
def State.device (s : State) (id : Byte) : Device := Sparse.get Device.absent s.dev id.toNat

/-- Replace the record of a device. -/
def State.setDevice (s : State) (id : Byte) (d : Device) : State :=
  s.setDev (Sparse.set Device.absent s.dev id.toNat d)

/-- `DevProbe(d)`, the answer of TD as SW: an unavailable device is not ready; the readiness of an available one is the next
free draw (R160, R164, R168). -/
def devProbe (s : State) (id : Byte) : State :=
  let d := s.device id
  if d.avail then
    (s.setDevice id { d with polls := d.polls + 1 }).setSw (if Config.tdReady id d.polls then 1#24 else 0#24)
  else s.setSw 0#24

/-- The checks RD and WD make before they touch a device (R161, R162, R243 item 8): available, and not used in the other
direction. -/
def deviceChecked (s : State) (id : Byte) (other : DeviceUse) : Except Exception Device :=
  let d := s.device id
  if d.avail then
    if d.used = other then .error (.deviceDirectionConflict id) else .ok d
  else .error (.deviceUnavailable id)

/-- `DevRead(d)` into A: the byte at the read cursor, which moves on, or 0 at the end of the stream (R161, R164, R165). The
whole of A is written. -/
def devRead (s : State) (id : Byte) : Except Exception State :=
  match deviceChecked s id .write with
  | .error e => .error e
  | .ok d =>
    match d.input[d.rpos]? with
    | some v => .ok ((s.setDevice id { d with rpos := d.rpos + 1, used := .read }).setA (v.setWidth 24))
    | none => .ok ((s.setDevice id { d with used := .read }).setA 0#24)

/-- `DevWrite(d, b)`: append the byte (R162, R164, R165). -/
def devWrite (s : State) (id : Byte) (v : Byte) : Except Exception State :=
  match deviceChecked s id .read with
  | .error e => .error e
  | .ok d => .ok (s.setDevice id { d with out := d.out ++ [v], used := .write })

end Sys2Proof.Machine
end

