-- ==== Sys2Proof/Machine/Flags.lean ====
section
/-!
DEFINITION. The condition code in SW: how a comparison sets it and how the conditional jumps test it (R9, R30, R142, R143).
-/

namespace Sys2Proof.Machine

/-- `cmp24`: the order of two words read as signed 24-bit numbers (R9). -/
def cmp24 (v w : Word) : Ordering := compare v.toInt w.toInt

/-- `SWenc`: the 24-bit encoding of a comparison result (R9, R30). -/
def swEnc : Ordering → Word
  | .lt => 0xFFFFFF#24
  | .eq => 0x000000#24
  | .gt => 0x000001#24

/-- SW becomes the result of comparing `v` with `w` (R111, R112, R140). -/
def State.compareWords (s : State) (v w : Word) : State := s.setSw (swEnc (cmp24 v w))

/-- JEQ's test: SW = 0 (R142). -/
def swEqual (s : State) : Bool := s.regs.sw == 0#24

/-- JLT's test: SW is negative as a signed number (R143). -/
def swLess (s : State) : Bool := decide (s.regs.sw.toInt < 0)

end Sys2Proof.Machine
end

