-- ==== Sys2Proof/Machine/Operands.lean ====
section
/-!
DEFINITION. Operand forms: register fields (R22, R90), effective addresses (R81 to R85), addressing modes (R86), immediate
values (R87), the operand resolution functions (R88), and the decoder's outputs as one block (R70, R92).

A meaning runs with PC already at PCnext, the address after the instruction (R10, R276). So PC is PCnext here, and the
instruction's own address is PC less its length (log entry 17).
-/

namespace Sys2Proof.Machine

/-! ## Register fields -/

/-- The nine registers by name (R21). -/
inductive RegName where
  | a | x | l | b | s | t | f | pc | sw
  deriving DecidableEq, Repr

/-- The register numbers (R22). 7 and 10 to 15 name no register. -/
def regNamed (k : RegField) : Option RegName :=
  match k with
  | 0#4 => some .a
  | 1#4 => some .x
  | 2#4 => some .l
  | 3#4 => some .b
  | 4#4 => some .s
  | 5#4 => some .t
  | 6#4 => some .f
  | 8#4 => some .pc
  | 9#4 => some .sw
  | _ => none

/-- The value of an integer register; F has none (R37, R90). -/
def Regs.integer (r : Regs) : RegName → Option Word
  | .a => some r.a
  | .x => some r.x
  | .l => some r.l
  | .b => some r.b
  | .s => some r.s
  | .t => some r.t
  | .f => none
  | .pc => some r.pc
  | .sw => some r.sw

/-- `RegWrite` (R90): an integer register takes the value; F takes the all-zero pattern, its only write in scope. -/
def Regs.put (r : Regs) (n : RegName) (v : Word) : Regs :=
  match n with
  | .a => { r with a := v }
  | .x => { r with x := v }
  | .l => { r with l := v }
  | .b => { r with b := v }
  | .s => { r with s := v }
  | .t => { r with t := v }
  | .f => { r with f := 0#48 }
  | .pc => { r with pc := v }
  | .sw => { r with sw := v }

/-- The address of the instruction that is executing, of the given length (R10). -/
def instructionAddress (s : State) (length : Nat) : Word := s.regs.pc - BitVec.ofNat 24 length

/-- `RegNum(k)` in a format 2 instruction (R90). -/
def regNum (s : State) (k : RegField) : Except Exception RegName :=
  match regNamed k with
  | some n => .ok n
  | none => .error (.illegalRegister (instructionAddress s 2) k)

/-- `RegRead(k)` in a format 2 instruction: PC reads PCnext, SW its encoding, F and unassigned numbers fault (R90). -/
def regRead (s : State) (k : RegField) : Except Exception Word :=
  match regNamed k with
  | some n =>
    match s.regs.integer n with
    | some v => .ok v
    | none => .error (.illegalRegister (instructionAddress s 2) k)
  | none => .error (.illegalRegister (instructionAddress s 2) k)

/-! ## Effective address, mode and immediate value -/

/-- EA0, the address before indexing (R81 to R84): absolute in format 4; else PC-relative, base-relative or direct, p first. -/
def baseAddress (d : MemOperand) (pcNext rB : Word) : Word :=
  match d.field with
  | .addr20 v => v.setWidth 24
  | .disp12 v =>
    if d.p then pcNext + v.signExtend 24
    else if d.b then rB + v.signExtend 24
    else v.setWidth 24

/-- `EffAddr` (R85): indexing comes after the base or PC-relative resolution; everything is modulo 2^24. -/
def effAddr (d : MemOperand) (pcNext rB rX : Word) : Word :=
  if d.x then baseAddress d pcNext rB + rX else baseAddress d pcNext rB

/-- The addressing modes (R70, R86); `absent` is the decoder's NONE for formats 1 and 2. -/
inductive AddressingMode where
  | absent
  | simple
  | immediate
  | indirect
  deriving DecidableEq, Repr

/-- (n, i) selects the mode (R86, R96). -/
def addressingMode (d : MemOperand) : AddressingMode :=
  match d.n, d.i with
  | false, true => .immediate
  | true, false => .indirect
  | true, true => .simple
  | false, false => .simple

/-- The field read as an immediate operand: zero extended (R87, FIELD). -/
def immediateField (d : MemOperand) : Word :=
  match d.field with
  | .addr20 v => v.setWidth 24
  | .disp12 v => v.setWidth 24

/-- The immediate value under a reading of `IMMEDIATE_VALUE_SOURCE` (R87). Where the two readings agree the source is not
consulted, so that such an operand's value does not wait on the open parameter. -/
def immediateValue (source : ImmediateValueSource) (d : MemOperand) (ea : Word) : Word :=
  if ea = immediateField d then ea
  else
    match source with
    | .field => immediateField d
    | .target => ea

/-- d.ea of the executing instruction: B and X as they stand before it executes (R83, R85). -/
def operandEa (d : MemOperand) (s : State) : Word := effAddr d s.regs.pc s.regs.b s.regs.x

/-- d.imm of the executing instruction (R87; log entry 7). -/
def operandImmediate (d : MemOperand) (s : State) : Word :=
  immediateValue Config.immediateValueSource d (operandEa d s)

/-! ## Operand resolution (R88) -/

/-- `OpAddr`: EA, or under INDIRECT the one word stored there. (The other two modes have no operand address; no caller is in
one.) -/
def opAddr (d : MemOperand) (s : State) : Except Exception Word :=
  match addressingMode d with
  | .indirect => memReadWord s (operandEa d s)
  | .simple | .immediate | .absent => .ok (operandEa d s)

/-- `WordOperand`: LDA, LDT, COMP. -/
def wordOperand (d : MemOperand) (s : State) : Except Exception Word :=
  match addressingMode d with
  | .immediate => .ok (operandImmediate d s)
  | .simple | .indirect | .absent => (opAddr d s).bind (memReadWord s)

/-- `ByteOperand`: LDCH. -/
def byteOperand (d : MemOperand) (s : State) : Except Exception Byte :=
  match addressingMode d with
  | .immediate => .ok ((operandImmediate d s).extractLsb' 0 8)
  | .simple | .indirect | .absent => (opAddr d s).bind (memReadByte s)

/-- An operand that must be an address: mode IMMEDIATE faults before anything is read (R88, R237, R243). -/
def addressOperand (m : Mnemonic) (d : MemOperand) (s : State) : Except Exception Word :=
  match addressingMode d with
  | .immediate => .error (.illegalAddressingMode (instructionAddress s d.length) m)
  | .simple | .indirect | .absent => opAddr d s

/-- `StoreAddr`: STA, STL, STX, STCH. -/
def storeAddr (m : Mnemonic) (d : MemOperand) (s : State) : Except Exception Word := addressOperand m d s

/-- `JumpTarget`: J, JEQ, JLT, JSUB. -/
def jumpTarget (m : Mnemonic) (d : MemOperand) (s : State) : Except Exception Word := addressOperand m d s

/-- `DeviceId`: TD, RD, WD. -/
def deviceId (m : Mnemonic) (d : MemOperand) (s : State) : Except Exception Byte :=
  (addressOperand m d s).bind (memReadByte s)

/-! ## The decoder as a block -/

/-- The decoder's outputs (R70). A signal that the format does not define is `none`. -/
structure DecoderSignals where
  opcode : Byte
  mnem : Option Mnemonic
  fmt : Format
  flags : Nixbpe
  r1 : Option RegField
  r2 : Option RegField
  disp12 : Option (BitVec 12)
  addr20 : Option (BitVec 20)
  pcnext : Word
  mode : AddressingMode
  ea : Option Word
  imm : Option Word
  deriving DecidableEq, Repr

/-- The decoder: a pure function of the bytes, the address `ia`, B, X and the parameter (R70, R92). DESIGN CHOICE (log entry 27):
for RSUB it outputs ea and imm as R70 and R92 define them for every format 3/4 instruction, although R89 exempts RSUB from the
computation; RSUB uses neither, and a step reports none for it (R98). -/
def decoderBlock (source : ImmediateValueSource) (ia : Word) (bytes : List Byte) (rB rX : Word) :
    Except DecodeError DecoderSignals :=
  match decode bytes with
  | .error e => .error e
  | .ok (i, _) =>
    let pcNext := ia + BitVec.ofNat 24 i.length
    let plain : DecoderSignals :=
      { opcode := i.opcode, mnem := i.mnemonic, fmt := i.format, flags := i.flags, r1 := none, r2 := none,
        disp12 := none, addr20 := none, pcnext := pcNext, mode := .absent, ea := none, imm := none }
    match i.operands with
    | .none => .ok plain
    | .regs r1 r2 => .ok { plain with r1 := some r1, r2 := some r2 }
    | .mem d =>
      let ea := effAddr d pcNext rB rX
      let resolved : DecoderSignals :=
        { plain with mode := addressingMode d, ea := some ea, imm := some (immediateValue source d ea) }
      match d.field with
      | .disp12 v => .ok { resolved with disp12 := some v }
      | .addr20 v => .ok { resolved with addr20 := some v }

end Sys2Proof.Machine
end

