-- ==== Sys2Proof/Machine/Control.lean ====
section
/-!
DEFINITION. Compare and control transfer (spec/42_compare_control.md). PC holds PCnext when a meaning runs.
-/

namespace Sys2Proof.Machine

/-- COMP: SW becomes the signed comparison of A with the word operand (R140). -/
def compareA (d : MemOperand) (s : State) : Host.Outcome State Fault Refusal :=
  complete s ((wordOperand d s).map fun v => s.compareWords s.regs.a v)

/-- A jump: the target is resolved whether or not the jump is taken (R141 to R143). -/
def jumpIf (taken : Bool) (m : Mnemonic) (d : MemOperand) (s : State) : Host.Outcome State Fault Refusal :=
  complete s ((jumpTarget m d s).map fun t => if taken then s.setPc t else s)

/-- JSUB: L becomes PCnext, then PC the target, which was resolved first (R144). -/
def jumpAndLink (d : MemOperand) (s : State) : Host.Outcome State Fault Refusal :=
  complete s ((jumpTarget .jsub d s).map fun t => (s.setL s.regs.pc).setPc t)

/-- RSUB: PC becomes L. The operand is not looked at (R89, R145). -/
def returnFromSubroutine (s : State) : Host.Outcome State Fault Refusal := complete s (.ok (s.setPc s.regs.l))

/-- COMP (R140), format 3: SW becomes the comparison of A with the operand. -/
def execComp (d : MemOperand) (s : State) : Host.Outcome State Fault Refusal :=
  compareA d s

/-- +COMP (R140), format 4: SW becomes the comparison of A with the operand. -/
def execCompE (d : MemOperand) (s : State) : Host.Outcome State Fault Refusal :=
  compareA d s

/-- J (R141), format 3: PC becomes the target. -/
def execJ (d : MemOperand) (s : State) : Host.Outcome State Fault Refusal :=
  jumpIf true .j d s

/-- +J (R141), format 4: PC becomes the target. -/
def execJE (d : MemOperand) (s : State) : Host.Outcome State Fault Refusal :=
  jumpIf true .j d s

/-- JEQ (R142), format 3: PC becomes the target if SW = 0. -/
def execJeq (d : MemOperand) (s : State) : Host.Outcome State Fault Refusal :=
  jumpIf (swEqual s) .jeq d s

/-- +JEQ (R142), format 4: PC becomes the target if SW = 0. -/
def execJeqE (d : MemOperand) (s : State) : Host.Outcome State Fault Refusal :=
  jumpIf (swEqual s) .jeq d s

/-- JLT (R143), format 3: PC becomes the target if SW is negative. -/
def execJlt (d : MemOperand) (s : State) : Host.Outcome State Fault Refusal :=
  jumpIf (swLess s) .jlt d s

/-- +JLT (R143), format 4: PC becomes the target if SW is negative. -/
def execJltE (d : MemOperand) (s : State) : Host.Outcome State Fault Refusal :=
  jumpIf (swLess s) .jlt d s

/-- JSUB (R144), format 3: L becomes PCnext and PC the target. -/
def execJsub (d : MemOperand) (s : State) : Host.Outcome State Fault Refusal :=
  jumpAndLink d s

/-- +JSUB (R144), format 4: L becomes PCnext and PC the target. -/
def execJsubE (d : MemOperand) (s : State) : Host.Outcome State Fault Refusal :=
  jumpAndLink d s

/-- RSUB (R145), format 3: PC becomes L. -/
def execRsub (_d : MemOperand) (s : State) : Host.Outcome State Fault Refusal :=
  returnFromSubroutine s

/-- +RSUB (R145), format 4: PC becomes L. -/
def execRsubE (_d : MemOperand) (s : State) : Host.Outcome State Fault Refusal :=
  returnFromSubroutine s

end Sys2Proof.Machine
end

