-- ==== Sys2Proof/Machine/Device.lean ====
section
/-!
DEFINITION. Device input and output (spec/43_device_io.md). The device is named by the byte at the operand address.
-/

namespace Sys2Proof.Machine

/-- TD: SW says whether the device is ready (R160). -/
def testDevice (d : MemOperand) (s : State) : Host.Outcome State Fault Refusal :=
  complete s ((deviceId .td d s).map fun id => devProbe s id)

/-- RD: A becomes the device's next byte (R161). -/
def readDevice (d : MemOperand) (s : State) : Host.Outcome State Fault Refusal :=
  complete s ((deviceId .rd d s).bind fun id => devRead s id)

/-- WD: A[7:0] is appended to the device's output (R162). -/
def writeDevice (d : MemOperand) (s : State) : Host.Outcome State Fault Refusal :=
  complete s ((deviceId .wd d s).bind fun id => devWrite s id (s.regs.a.extractLsb' 0 8))

/-- TD (R160), format 3: SW becomes 1 for ready and 0 for not ready. -/
def execTd (d : MemOperand) (s : State) : Host.Outcome State Fault Refusal :=
  testDevice d s

/-- +TD (R160), format 4: SW becomes 1 for ready and 0 for not ready. -/
def execTdE (d : MemOperand) (s : State) : Host.Outcome State Fault Refusal :=
  testDevice d s

/-- RD (R161), format 3: A becomes the byte read, or 0 at the end of the stream. -/
def execRd (d : MemOperand) (s : State) : Host.Outcome State Fault Refusal :=
  readDevice d s

/-- +RD (R161), format 4: A becomes the byte read, or 0 at the end of the stream. -/
def execRdE (d : MemOperand) (s : State) : Host.Outcome State Fault Refusal :=
  readDevice d s

/-- WD (R162), format 3: A[7:0] is appended to the output. -/
def execWd (d : MemOperand) (s : State) : Host.Outcome State Fault Refusal :=
  writeDevice d s

/-- +WD (R162), format 4: A[7:0] is appended to the output. -/
def execWdE (d : MemOperand) (s : State) : Host.Outcome State Fault Refusal :=
  writeDevice d s

end Sys2Proof.Machine
end

