-- ==== Sys2Proof/Machine/LoadStore.lean ====
section
/-!
DEFINITION. The load and store instructions (spec/41_load_store.md). The format 3 and format 4 rows of a mnemonic differ in
the operand alone, so each pair is written over one shared operation.
-/

namespace Sys2Proof.Machine

/-- A word load: `put` stores the word operand in the destination register. -/
def loadWord (put : State → Word → State) (d : MemOperand) (s : State) : Host.Outcome State Fault Refusal :=
  complete s ((wordOperand d s).map (put s))

/-- A word store of `v`. -/
def storeWord (m : Mnemonic) (d : MemOperand) (v : Word) (s : State) : Host.Outcome State Fault Refusal :=
  complete s ((storeAddr m d s).bind fun t => memWriteWord s t v)

/-- LDCH: the byte operand goes into A[7:0]; A[23:8] is kept (R122). -/
def loadLowByte (d : MemOperand) (s : State) : Host.Outcome State Fault Refusal :=
  complete s ((byteOperand d s).map fun c => s.setA (s.regs.a.extractLsb' 8 16 ++ c))

/-- STCH: A[7:0] goes to one byte of memory (R126). -/
def storeLowByte (d : MemOperand) (s : State) : Host.Outcome State Fault Refusal :=
  complete s ((storeAddr .stch d s).bind fun t => memWriteByte s t (s.regs.a.extractLsb' 0 8))

/-- LDA (R120), format 3: A becomes the word operand. -/
def execLda (d : MemOperand) (s : State) : Host.Outcome State Fault Refusal :=
  loadWord State.setA d s

/-- +LDA (R120), format 4: A becomes the word operand. -/
def execLdaE (d : MemOperand) (s : State) : Host.Outcome State Fault Refusal :=
  loadWord State.setA d s

/-- LDT (R121), format 3: T becomes the word operand. -/
def execLdt (d : MemOperand) (s : State) : Host.Outcome State Fault Refusal :=
  loadWord State.setT d s

/-- +LDT (R121), format 4: T becomes the word operand. -/
def execLdtE (d : MemOperand) (s : State) : Host.Outcome State Fault Refusal :=
  loadWord State.setT d s

/-- LDCH (R122), format 3: A[7:0] becomes the byte operand. -/
def execLdch (d : MemOperand) (s : State) : Host.Outcome State Fault Refusal :=
  loadLowByte d s

/-- +LDCH (R122), format 4: A[7:0] becomes the byte operand. -/
def execLdchE (d : MemOperand) (s : State) : Host.Outcome State Fault Refusal :=
  loadLowByte d s

/-- STA (R123), format 3: A is stored. -/
def execSta (d : MemOperand) (s : State) : Host.Outcome State Fault Refusal :=
  storeWord .sta d s.regs.a s

/-- +STA (R123), format 4: A is stored. -/
def execStaE (d : MemOperand) (s : State) : Host.Outcome State Fault Refusal :=
  storeWord .sta d s.regs.a s

/-- STL (R124), format 3: L is stored. -/
def execStl (d : MemOperand) (s : State) : Host.Outcome State Fault Refusal :=
  storeWord .stl d s.regs.l s

/-- +STL (R124), format 4: L is stored. -/
def execStlE (d : MemOperand) (s : State) : Host.Outcome State Fault Refusal :=
  storeWord .stl d s.regs.l s

/-- STX (R125), format 3: X is stored. -/
def execStx (d : MemOperand) (s : State) : Host.Outcome State Fault Refusal :=
  storeWord .stx d s.regs.x s

/-- +STX (R125), format 4: X is stored. -/
def execStxE (d : MemOperand) (s : State) : Host.Outcome State Fault Refusal :=
  storeWord .stx d s.regs.x s

/-- STCH (R126), format 3: A[7:0] is stored. -/
def execStch (d : MemOperand) (s : State) : Host.Outcome State Fault Refusal :=
  storeLowByte d s

/-- +STCH (R126), format 4: A[7:0] is stored. -/
def execStchE (d : MemOperand) (s : State) : Host.Outcome State Fault Refusal :=
  storeLowByte d s

end Sys2Proof.Machine
end

