-- ==== Sys2Proof/Machine/Register.lean ====
section
/-!
DEFINITION. The register instructions CLEAR, COMPR and TIXR (spec/40_register.md).
-/

namespace Sys2Proof.Machine

/-- CLEAR r1 (R110): the register becomes zero, F its all-zero pattern; r2 is ignored. -/
def execClear (r1 _r2 : RegField) (s : State) : Host.Outcome State Fault Refusal :=
  complete s ((regNum s r1).map fun n => s.setRegs (s.regs.put n 0#24))

/-- COMPR r1,r2 (R111): SW becomes the signed comparison; r1 is tested before r2. -/
def execCompr (r1 r2 : RegField) (s : State) : Host.Outcome State Fault Refusal :=
  complete s ((regRead s r1).bind fun v1 => (regRead s r2).map fun v2 => s.compareWords v1 v2)

/-- TIXR r1 (R112): X is incremented and compared with the register, which is checked before and read after the increment;
r2 is ignored. -/
def execTixr (r1 _r2 : RegField) (s : State) : Host.Outcome State Fault Refusal :=
  complete s ((regRead s r1).bind fun _ =>
    let s' := s.setX (s.regs.x + 1#24)
    (regRead s' r1).map fun v => s'.compareWords s'.regs.x v)

end Sys2Proof.Machine
end

