-- ==== Sys2Proof/Machine/Unimplemented.lean ====
section
/-!
DEFINITION. The instructions without semantics (spec/44_unimplemented.md): executing one takes the fault UnknownMnemonic with
the instruction's address and opcode, before any operand is read (R180).
-/

namespace Sys2Proof.Machine

/-- `raise UnknownMnemonic(d.address, opcode)` in an instruction of the given length (R180). -/
def unknownMnemonic (length : Nat) (opcode : Byte) (s : State) : Host.Outcome State Fault Refusal :=
  complete s (.error (.unknownMnemonic (instructionAddress s length) opcode))

/-- LDX (R181). -/
def execLdx (d : MemOperand) (s : State) : Host.Outcome State Fault Refusal :=
  unknownMnemonic d.length 0x04#8 s

/-- +LDX (R181). -/
def execLdxE (d : MemOperand) (s : State) : Host.Outcome State Fault Refusal :=
  unknownMnemonic d.length 0x04#8 s

/-- LDL (R182). -/
def execLdl (d : MemOperand) (s : State) : Host.Outcome State Fault Refusal :=
  unknownMnemonic d.length 0x08#8 s

/-- +LDL (R182). -/
def execLdlE (d : MemOperand) (s : State) : Host.Outcome State Fault Refusal :=
  unknownMnemonic d.length 0x08#8 s

/-- ADD (R183). -/
def execAdd (d : MemOperand) (s : State) : Host.Outcome State Fault Refusal :=
  unknownMnemonic d.length 0x18#8 s

/-- +ADD (R183). -/
def execAddE (d : MemOperand) (s : State) : Host.Outcome State Fault Refusal :=
  unknownMnemonic d.length 0x18#8 s

/-- SUB (R184). -/
def execSub (d : MemOperand) (s : State) : Host.Outcome State Fault Refusal :=
  unknownMnemonic d.length 0x1C#8 s

/-- +SUB (R184). -/
def execSubE (d : MemOperand) (s : State) : Host.Outcome State Fault Refusal :=
  unknownMnemonic d.length 0x1C#8 s

/-- MUL (R185). -/
def execMul (d : MemOperand) (s : State) : Host.Outcome State Fault Refusal :=
  unknownMnemonic d.length 0x20#8 s

/-- +MUL (R185). -/
def execMulE (d : MemOperand) (s : State) : Host.Outcome State Fault Refusal :=
  unknownMnemonic d.length 0x20#8 s

/-- DIV (R186). -/
def execDiv (d : MemOperand) (s : State) : Host.Outcome State Fault Refusal :=
  unknownMnemonic d.length 0x24#8 s

/-- +DIV (R186). -/
def execDivE (d : MemOperand) (s : State) : Host.Outcome State Fault Refusal :=
  unknownMnemonic d.length 0x24#8 s

/-- TIX (R187). -/
def execTix (d : MemOperand) (s : State) : Host.Outcome State Fault Refusal :=
  unknownMnemonic d.length 0x2C#8 s

/-- +TIX (R187). -/
def execTixE (d : MemOperand) (s : State) : Host.Outcome State Fault Refusal :=
  unknownMnemonic d.length 0x2C#8 s

/-- JGT (R188). -/
def execJgt (d : MemOperand) (s : State) : Host.Outcome State Fault Refusal :=
  unknownMnemonic d.length 0x34#8 s

/-- +JGT (R188). -/
def execJgtE (d : MemOperand) (s : State) : Host.Outcome State Fault Refusal :=
  unknownMnemonic d.length 0x34#8 s

/-- AND (R189). -/
def execAnd (d : MemOperand) (s : State) : Host.Outcome State Fault Refusal :=
  unknownMnemonic d.length 0x40#8 s

/-- +AND (R189). -/
def execAndE (d : MemOperand) (s : State) : Host.Outcome State Fault Refusal :=
  unknownMnemonic d.length 0x40#8 s

/-- OR (R190). -/
def execOr (d : MemOperand) (s : State) : Host.Outcome State Fault Refusal :=
  unknownMnemonic d.length 0x44#8 s

/-- +OR (R190). -/
def execOrE (d : MemOperand) (s : State) : Host.Outcome State Fault Refusal :=
  unknownMnemonic d.length 0x44#8 s

/-- ADDF (R191). -/
def execAddf (d : MemOperand) (s : State) : Host.Outcome State Fault Refusal :=
  unknownMnemonic d.length 0x58#8 s

/-- +ADDF (R191). -/
def execAddfE (d : MemOperand) (s : State) : Host.Outcome State Fault Refusal :=
  unknownMnemonic d.length 0x58#8 s

/-- SUBF (R192). -/
def execSubf (d : MemOperand) (s : State) : Host.Outcome State Fault Refusal :=
  unknownMnemonic d.length 0x5C#8 s

/-- +SUBF (R192). -/
def execSubfE (d : MemOperand) (s : State) : Host.Outcome State Fault Refusal :=
  unknownMnemonic d.length 0x5C#8 s

/-- MULF (R193). -/
def execMulf (d : MemOperand) (s : State) : Host.Outcome State Fault Refusal :=
  unknownMnemonic d.length 0x60#8 s

/-- +MULF (R193). -/
def execMulfE (d : MemOperand) (s : State) : Host.Outcome State Fault Refusal :=
  unknownMnemonic d.length 0x60#8 s

/-- DIVF (R194). -/
def execDivf (d : MemOperand) (s : State) : Host.Outcome State Fault Refusal :=
  unknownMnemonic d.length 0x64#8 s

/-- +DIVF (R194). -/
def execDivfE (d : MemOperand) (s : State) : Host.Outcome State Fault Refusal :=
  unknownMnemonic d.length 0x64#8 s

/-- LDB (R195). -/
def execLdb (d : MemOperand) (s : State) : Host.Outcome State Fault Refusal :=
  unknownMnemonic d.length 0x68#8 s

/-- +LDB (R195). -/
def execLdbE (d : MemOperand) (s : State) : Host.Outcome State Fault Refusal :=
  unknownMnemonic d.length 0x68#8 s

/-- LDS (R196). -/
def execLds (d : MemOperand) (s : State) : Host.Outcome State Fault Refusal :=
  unknownMnemonic d.length 0x6C#8 s

/-- +LDS (R196). -/
def execLdsE (d : MemOperand) (s : State) : Host.Outcome State Fault Refusal :=
  unknownMnemonic d.length 0x6C#8 s

/-- LDF (R197). -/
def execLdf (d : MemOperand) (s : State) : Host.Outcome State Fault Refusal :=
  unknownMnemonic d.length 0x70#8 s

/-- +LDF (R197). -/
def execLdfE (d : MemOperand) (s : State) : Host.Outcome State Fault Refusal :=
  unknownMnemonic d.length 0x70#8 s

/-- STB (R198). -/
def execStb (d : MemOperand) (s : State) : Host.Outcome State Fault Refusal :=
  unknownMnemonic d.length 0x78#8 s

/-- +STB (R198). -/
def execStbE (d : MemOperand) (s : State) : Host.Outcome State Fault Refusal :=
  unknownMnemonic d.length 0x78#8 s

/-- STS (R199). -/
def execSts (d : MemOperand) (s : State) : Host.Outcome State Fault Refusal :=
  unknownMnemonic d.length 0x7C#8 s

/-- +STS (R199). -/
def execStsE (d : MemOperand) (s : State) : Host.Outcome State Fault Refusal :=
  unknownMnemonic d.length 0x7C#8 s

/-- STF (R200). -/
def execStf (d : MemOperand) (s : State) : Host.Outcome State Fault Refusal :=
  unknownMnemonic d.length 0x80#8 s

/-- +STF (R200). -/
def execStfE (d : MemOperand) (s : State) : Host.Outcome State Fault Refusal :=
  unknownMnemonic d.length 0x80#8 s

/-- STT (R201). -/
def execStt (d : MemOperand) (s : State) : Host.Outcome State Fault Refusal :=
  unknownMnemonic d.length 0x84#8 s

/-- +STT (R201). -/
def execSttE (d : MemOperand) (s : State) : Host.Outcome State Fault Refusal :=
  unknownMnemonic d.length 0x84#8 s

/-- COMPF (R202). -/
def execCompf (d : MemOperand) (s : State) : Host.Outcome State Fault Refusal :=
  unknownMnemonic d.length 0x88#8 s

/-- +COMPF (R202). -/
def execCompfE (d : MemOperand) (s : State) : Host.Outcome State Fault Refusal :=
  unknownMnemonic d.length 0x88#8 s

/-- ADDR (R203). -/
def execAddr (_r1 _r2 : RegField) (s : State) : Host.Outcome State Fault Refusal :=
  unknownMnemonic 2 0x90#8 s

/-- SUBR (R204). -/
def execSubr (_r1 _r2 : RegField) (s : State) : Host.Outcome State Fault Refusal :=
  unknownMnemonic 2 0x94#8 s

/-- MULR (R205). -/
def execMulr (_r1 _r2 : RegField) (s : State) : Host.Outcome State Fault Refusal :=
  unknownMnemonic 2 0x98#8 s

/-- DIVR (R206). -/
def execDivr (_r1 _r2 : RegField) (s : State) : Host.Outcome State Fault Refusal :=
  unknownMnemonic 2 0x9C#8 s

/-- SHIFTL (R207). -/
def execShiftl (_r1 _r2 : RegField) (s : State) : Host.Outcome State Fault Refusal :=
  unknownMnemonic 2 0xA4#8 s

/-- SHIFTR (R208). -/
def execShiftr (_r1 _r2 : RegField) (s : State) : Host.Outcome State Fault Refusal :=
  unknownMnemonic 2 0xA8#8 s

/-- RMO (R209). -/
def execRmo (_r1 _r2 : RegField) (s : State) : Host.Outcome State Fault Refusal :=
  unknownMnemonic 2 0xAC#8 s

/-- SVC (R210). -/
def execSvc (_r1 _r2 : RegField) (s : State) : Host.Outcome State Fault Refusal :=
  unknownMnemonic 2 0xB0#8 s

/-- FLOAT (R211). -/
def execFloat (s : State) : Host.Outcome State Fault Refusal :=
  unknownMnemonic 1 0xC0#8 s

/-- FIX (R212). -/
def execFix (s : State) : Host.Outcome State Fault Refusal :=
  unknownMnemonic 1 0xC4#8 s

/-- NORM (R213). -/
def execNorm (s : State) : Host.Outcome State Fault Refusal :=
  unknownMnemonic 1 0xC8#8 s

/-- LPS (R214). -/
def execLps (d : MemOperand) (s : State) : Host.Outcome State Fault Refusal :=
  unknownMnemonic d.length 0xD0#8 s

/-- +LPS (R214). -/
def execLpsE (d : MemOperand) (s : State) : Host.Outcome State Fault Refusal :=
  unknownMnemonic d.length 0xD0#8 s

/-- STI (R215). -/
def execSti (d : MemOperand) (s : State) : Host.Outcome State Fault Refusal :=
  unknownMnemonic d.length 0xD4#8 s

/-- +STI (R215). -/
def execStiE (d : MemOperand) (s : State) : Host.Outcome State Fault Refusal :=
  unknownMnemonic d.length 0xD4#8 s

/-- STSW (R216). -/
def execStsw (d : MemOperand) (s : State) : Host.Outcome State Fault Refusal :=
  unknownMnemonic d.length 0xE8#8 s

/-- +STSW (R216). -/
def execStswE (d : MemOperand) (s : State) : Host.Outcome State Fault Refusal :=
  unknownMnemonic d.length 0xE8#8 s

/-- SSK (R217). -/
def execSsk (d : MemOperand) (s : State) : Host.Outcome State Fault Refusal :=
  unknownMnemonic d.length 0xEC#8 s

/-- +SSK (R217). -/
def execSskE (d : MemOperand) (s : State) : Host.Outcome State Fault Refusal :=
  unknownMnemonic d.length 0xEC#8 s

/-- SIO (R218). -/
def execSio (s : State) : Host.Outcome State Fault Refusal :=
  unknownMnemonic 1 0xF0#8 s

/-- HIO (R219). -/
def execHio (s : State) : Host.Outcome State Fault Refusal :=
  unknownMnemonic 1 0xF4#8 s

/-- TIO (R220). -/
def execTio (s : State) : Host.Outcome State Fault Refusal :=
  unknownMnemonic 1 0xF8#8 s

/-- none_8C (R221). -/
def execNone8C (d : MemOperand) (s : State) : Host.Outcome State Fault Refusal :=
  unknownMnemonic d.length 0x8C#8 s

/-- none_8C__e_1 (R221). -/
def execNone8CE (d : MemOperand) (s : State) : Host.Outcome State Fault Refusal :=
  unknownMnemonic d.length 0x8C#8 s

/-- none_BC (R221). -/
def execNoneBC (d : MemOperand) (s : State) : Host.Outcome State Fault Refusal :=
  unknownMnemonic d.length 0xBC#8 s

/-- none_BC__e_1 (R221). -/
def execNoneBCE (d : MemOperand) (s : State) : Host.Outcome State Fault Refusal :=
  unknownMnemonic d.length 0xBC#8 s

/-- none_CC (R221). -/
def execNoneCC (d : MemOperand) (s : State) : Host.Outcome State Fault Refusal :=
  unknownMnemonic d.length 0xCC#8 s

/-- none_CC__e_1 (R221). -/
def execNoneCCE (d : MemOperand) (s : State) : Host.Outcome State Fault Refusal :=
  unknownMnemonic d.length 0xCC#8 s

/-- none_E4 (R221). -/
def execNoneE4 (d : MemOperand) (s : State) : Host.Outcome State Fault Refusal :=
  unknownMnemonic d.length 0xE4#8 s

/-- none_E4__e_1 (R221). -/
def execNoneE4E (d : MemOperand) (s : State) : Host.Outcome State Fault Refusal :=
  unknownMnemonic d.length 0xE4#8 s

/-- none_FC (R221). -/
def execNoneFC (d : MemOperand) (s : State) : Host.Outcome State Fault Refusal :=
  unknownMnemonic d.length 0xFC#8 s

/-- none_FC__e_1 (R221). -/
def execNoneFCE (d : MemOperand) (s : State) : Host.Outcome State Fault Refusal :=
  unknownMnemonic d.length 0xFC#8 s

end Sys2Proof.Machine
end

