-- ==== Sys2Proof/Machine/Dispatch.lean ====
section
/-!
DEFINITION. `Execute(d)` (R180): one arm per constructor of `Instr`, each one call of that instruction's own meaning.
-/

namespace Sys2Proof.Machine

-- The state given to exec is the one the controller dispatches on: PC already holds PCnext (R10, R276).
def exec (i : Instr) (s : State) : Host.Outcome State Fault Refusal :=
  match i with
  | .lda d => Sys2Proof.Machine.execLda d s
  | .ldaE d => Sys2Proof.Machine.execLdaE d s
  | .ldx d => Sys2Proof.Machine.execLdx d s
  | .ldxE d => Sys2Proof.Machine.execLdxE d s
  | .ldl d => Sys2Proof.Machine.execLdl d s
  | .ldlE d => Sys2Proof.Machine.execLdlE d s
  | .sta d => Sys2Proof.Machine.execSta d s
  | .staE d => Sys2Proof.Machine.execStaE d s
  | .stx d => Sys2Proof.Machine.execStx d s
  | .stxE d => Sys2Proof.Machine.execStxE d s
  | .stl d => Sys2Proof.Machine.execStl d s
  | .stlE d => Sys2Proof.Machine.execStlE d s
  | .add d => Sys2Proof.Machine.execAdd d s
  | .addE d => Sys2Proof.Machine.execAddE d s
  | .sub d => Sys2Proof.Machine.execSub d s
  | .subE d => Sys2Proof.Machine.execSubE d s
  | .mul d => Sys2Proof.Machine.execMul d s
  | .mulE d => Sys2Proof.Machine.execMulE d s
  | .div d => Sys2Proof.Machine.execDiv d s
  | .divE d => Sys2Proof.Machine.execDivE d s
  | .comp d => Sys2Proof.Machine.execComp d s
  | .compE d => Sys2Proof.Machine.execCompE d s
  | .tix d => Sys2Proof.Machine.execTix d s
  | .tixE d => Sys2Proof.Machine.execTixE d s
  | .jeq d => Sys2Proof.Machine.execJeq d s
  | .jeqE d => Sys2Proof.Machine.execJeqE d s
  | .jgt d => Sys2Proof.Machine.execJgt d s
  | .jgtE d => Sys2Proof.Machine.execJgtE d s
  | .jlt d => Sys2Proof.Machine.execJlt d s
  | .jltE d => Sys2Proof.Machine.execJltE d s
  | .j d => Sys2Proof.Machine.execJ d s
  | .jE d => Sys2Proof.Machine.execJE d s
  | .and d => Sys2Proof.Machine.execAnd d s
  | .andE d => Sys2Proof.Machine.execAndE d s
  | .or d => Sys2Proof.Machine.execOr d s
  | .orE d => Sys2Proof.Machine.execOrE d s
  | .jsub d => Sys2Proof.Machine.execJsub d s
  | .jsubE d => Sys2Proof.Machine.execJsubE d s
  | .rsub d => Sys2Proof.Machine.execRsub d s
  | .rsubE d => Sys2Proof.Machine.execRsubE d s
  | .ldch d => Sys2Proof.Machine.execLdch d s
  | .ldchE d => Sys2Proof.Machine.execLdchE d s
  | .stch d => Sys2Proof.Machine.execStch d s
  | .stchE d => Sys2Proof.Machine.execStchE d s
  | .addf d => Sys2Proof.Machine.execAddf d s
  | .addfE d => Sys2Proof.Machine.execAddfE d s
  | .subf d => Sys2Proof.Machine.execSubf d s
  | .subfE d => Sys2Proof.Machine.execSubfE d s
  | .mulf d => Sys2Proof.Machine.execMulf d s
  | .mulfE d => Sys2Proof.Machine.execMulfE d s
  | .divf d => Sys2Proof.Machine.execDivf d s
  | .divfE d => Sys2Proof.Machine.execDivfE d s
  | .ldb d => Sys2Proof.Machine.execLdb d s
  | .ldbE d => Sys2Proof.Machine.execLdbE d s
  | .lds d => Sys2Proof.Machine.execLds d s
  | .ldsE d => Sys2Proof.Machine.execLdsE d s
  | .ldf d => Sys2Proof.Machine.execLdf d s
  | .ldfE d => Sys2Proof.Machine.execLdfE d s
  | .ldt d => Sys2Proof.Machine.execLdt d s
  | .ldtE d => Sys2Proof.Machine.execLdtE d s
  | .stb d => Sys2Proof.Machine.execStb d s
  | .stbE d => Sys2Proof.Machine.execStbE d s
  | .sts d => Sys2Proof.Machine.execSts d s
  | .stsE d => Sys2Proof.Machine.execStsE d s
  | .stf d => Sys2Proof.Machine.execStf d s
  | .stfE d => Sys2Proof.Machine.execStfE d s
  | .stt d => Sys2Proof.Machine.execStt d s
  | .sttE d => Sys2Proof.Machine.execSttE d s
  | .compf d => Sys2Proof.Machine.execCompf d s
  | .compfE d => Sys2Proof.Machine.execCompfE d s
  | .addr r1 r2 => Sys2Proof.Machine.execAddr r1 r2 s
  | .subr r1 r2 => Sys2Proof.Machine.execSubr r1 r2 s
  | .mulr r1 r2 => Sys2Proof.Machine.execMulr r1 r2 s
  | .divr r1 r2 => Sys2Proof.Machine.execDivr r1 r2 s
  | .compr r1 r2 => Sys2Proof.Machine.execCompr r1 r2 s
  | .shiftl r1 r2 => Sys2Proof.Machine.execShiftl r1 r2 s
  | .shiftr r1 r2 => Sys2Proof.Machine.execShiftr r1 r2 s
  | .rmo r1 r2 => Sys2Proof.Machine.execRmo r1 r2 s
  | .svc r1 r2 => Sys2Proof.Machine.execSvc r1 r2 s
  | .clear r1 r2 => Sys2Proof.Machine.execClear r1 r2 s
  | .tixr r1 r2 => Sys2Proof.Machine.execTixr r1 r2 s
  | .float => Sys2Proof.Machine.execFloat s
  | .fix => Sys2Proof.Machine.execFix s
  | .norm => Sys2Proof.Machine.execNorm s
  | .lps d => Sys2Proof.Machine.execLps d s
  | .lpsE d => Sys2Proof.Machine.execLpsE d s
  | .sti d => Sys2Proof.Machine.execSti d s
  | .stiE d => Sys2Proof.Machine.execStiE d s
  | .rd d => Sys2Proof.Machine.execRd d s
  | .rdE d => Sys2Proof.Machine.execRdE d s
  | .wd d => Sys2Proof.Machine.execWd d s
  | .wdE d => Sys2Proof.Machine.execWdE d s
  | .td d => Sys2Proof.Machine.execTd d s
  | .tdE d => Sys2Proof.Machine.execTdE d s
  | .stsw d => Sys2Proof.Machine.execStsw d s
  | .stswE d => Sys2Proof.Machine.execStswE d s
  | .ssk d => Sys2Proof.Machine.execSsk d s
  | .sskE d => Sys2Proof.Machine.execSskE d s
  | .sio => Sys2Proof.Machine.execSio s
  | .hio => Sys2Proof.Machine.execHio s
  | .tio => Sys2Proof.Machine.execTio s
  | .none8C d => Sys2Proof.Machine.execNone8C d s
  | .none8CE d => Sys2Proof.Machine.execNone8CE d s
  | .noneBC d => Sys2Proof.Machine.execNoneBC d s
  | .noneBCE d => Sys2Proof.Machine.execNoneBCE d s
  | .noneCC d => Sys2Proof.Machine.execNoneCC d s
  | .noneCCE d => Sys2Proof.Machine.execNoneCCE d s
  | .noneE4 d => Sys2Proof.Machine.execNoneE4 d s
  | .noneE4E d => Sys2Proof.Machine.execNoneE4E d s
  | .noneFC d => Sys2Proof.Machine.execNoneFC d s
  | .noneFCE d => Sys2Proof.Machine.execNoneFCE d s

end Sys2Proof.Machine
end

