-- ==== Sys2Proof/Machine/Fetch.lean ====
section
/-!
DEFINITION. What the step controller does around Execute (spec/70_reset_and_hazards.md R274 to R277, R281): find the
instruction at PC, advance PC, and end the step. Also where an instruction is put so that the next step fetches it.
-/

namespace Sys2Proof.Machine

/-- The record of the boundary that starts at an address (R40, R276). -/
def boundaryAt (bounds : List DecodedInstruction) (a : Word) : Option DecodedInstruction :=
  bounds.find? fun r => r.address == a

/-- Memory still holds the bytes the boundary list recorded (R277). -/
def recordedBytesHold (m : Memory) (r : DecodedInstruction) : Bool :=
  m.readBytes r.address.toNat r.length == r.rawBytes

/-- What fetching at PC gives. -/
inductive Fetched where
  /-- The instruction to execute. -/
  | run (i : Instr)
  /-- A fault before dispatch (R243 items 1 and 2). -/
  | stop (e : Exception)
  /-- The record's raw bytes do not decode (log entry 13). -/
  | undecodable
  deriving DecidableEq, Repr

/-- The part of a step before dispatch: boundary lookup, recorded-bytes check, decode of the recorded bytes (R276, R277). -/
def fetch (s : State) : Fetched :=
  match boundaryAt s.bounds s.regs.pc with
  | none => .stop (.noInstructionAtAddress s.regs.pc)
  | some r =>
    if recordedBytesHold s.mem r then
      match decode r.rawBytes with
      | .ok (i, _) => .run i
      | .error _ => .undecodable
    else .stop (.selfModifiedInstruction s.regs.pc)

/-- The state Execute sees: PC is the address plus the length, the status Running (R34, R35, R276). -/
def dispatched (s : State) (i : Instr) : State :=
  (s.setPc (s.regs.pc + BitVec.ofNat 24 i.length)).setStatus .running

/-- The sentinel test, made only when the step did not fault (R275, R276). -/
def sentinelHalt (s : State) : State :=
  if s.status = .running ∧ s.regs.pc = Config.haltPc then s.setStatus .haltedOk else s

/-- The end of a step that executed an instruction, faulting or not: the step is counted, then the sentinel tested (R276). -/
def retire (o : Host.Outcome State Fault Refusal) : Host.Outcome State Fault Refusal :=
  match o with
  | .next t => .next (sentinelHalt t.countStep)
  | .fault r => .fault r
  | .refused r => .refused r

/-- Where `placeInstruction` puts an instruction of `length` bytes: at PC, or at address 0 where it would pass the end of
memory from PC on (log entry 18). -/
def placeAt (s : State) (length : Nat) : Word := if inMemory s.regs.pc length then s.regs.pc else 0#24

/-- Load one instruction where the next step fetches it: its bytes in memory, its boundary record first in the boundary
list, PC at it, and the status such that a step is enabled (R276; log entries 5 and 18). -/
def placeInstruction (s : State) (bytes : List Byte) : State :=
  let a := placeAt s (match decode bytes with | .ok (i, _) => i.length | .error _ => 0)
  match recordOf a bytes with
  | .error _ => s
  | .ok r =>
    { s with
      regs := { s.regs with pc := a }
      mem := s.mem.writeBytes a.toNat r.rawBytes
      bounds := r :: s.bounds.filter fun q => q.address != a
      status := if s.status.enabled then s.status else .loaded }

end Sys2Proof.Machine
end

