-- ==== Sys2Proof/Machine/Step.lean ====
section
/-!
DEFINITION. One step of the controller (R276), and the state whose next step runs a given instruction.
-/

namespace Sys2Proof.Machine

/-- `Step(s)` (R276). It is enabled only in Loaded and Running; Halted has no step (R245). -/
def step (s : State) : Host.Outcome State Fault Refusal :=
  if s.status.enabled then
    match fetch s with
    | .run i => retire (exec i (dispatched s i))
    | .stop e => .next (s.raise e)
    | .undecodable => .refused (.undecodableRecord s.regs.pc)
  else .fault .halted

/-- `s` with the instruction word stored where the next step fetches it (log entries 5, 14 and 18). -/
def State.withFetchWord (s : State) (nbits w : Nat) : State := placeInstruction s (tableWordBytes nbits w)

end Sys2Proof.Machine
end

