-- ==== Sys2Proof/Laws/Decode.lean ====
section
/-!
SUPPORT. The opcode map is total and agrees with the format sets of R72; the pieces of an encoding decode to what they came
from.
-/

namespace Sys2Proof.Laws

/-- Every value of byte_0 AND 0xFC has a row, so `DecodeError.notAnOpcode` is never answered (R91, R93). -/
theorem opcodeRow_total (byte0 : Byte) : (opcodeRow (opcodeOf byte0)).isSome = true := by
  revert byte0; decide

/-- The format 1 and format 2 sets of R72, by the format each opcode value gets whatever byte_1 is. -/
theorem formatOf_sets (byte0 : Byte) :
    (formatOf byte0 0#8 = .one ↔ opcodeOf byte0 ∈ [0xC0#8, 0xC4#8, 0xC8#8, 0xF0#8, 0xF4#8, 0xF8#8]) ∧
    (formatOf byte0 0#8 = .two ↔ opcodeOf byte0 ∈ [0x90#8, 0x94#8, 0x98#8, 0x9C#8, 0xA0#8, 0xA4#8, 0xA8#8, 0xAC#8,
      0xB0#8, 0xB4#8, 0xB8#8]) := by
  revert byte0; decide

/-- The two low bits of byte_0 select nothing (R71). -/
theorem opcodeOf_idem (byte0 : Byte) : opcodeOf (opcodeOf byte0) = opcodeOf byte0 := by
  revert byte0; decide

theorem memOperand_format_three {d : MemOperand} (h : d.format = .three) : ∃ v, d.field = .disp12 v := by
  unfold MemOperand.format at h
  split at h
  · exact ⟨_, ‹_›⟩
  · cases h

theorem memOperand_format_four {d : MemOperand} (h : d.format = .four) : ∃ v, d.field = .addr20 v := by
  unfold MemOperand.format at h
  split at h
  · cases h
  · exact ⟨_, ‹_›⟩

/-- A well-formed format 3 instruction is encoded in three bytes (R74). -/
theorem encode_length_three {i : Instr} {d : MemOperand} (operands : i.operands = .mem d) (format : i.format = .three) :
    i.wellFormed = true → (encode i).length = i.length := by
  intro wf
  simp only [Instr.wellFormed, operands, format, beq_iff_eq] at wf
  obtain ⟨v, field⟩ := memOperand_format_three wf
  simp [encode, operands, field, Instr.length, format, Format.length]

/-- A well-formed format 4 instruction is encoded in four bytes (R74). -/
theorem encode_length_four {i : Instr} {d : MemOperand} (operands : i.operands = .mem d) (format : i.format = .four) :
    i.wellFormed = true → (encode i).length = i.length := by
  intro wf
  simp only [Instr.wellFormed, operands, format, beq_iff_eq] at wf
  obtain ⟨v, field⟩ := memOperand_format_four wf
  simp [encode, operands, field, Instr.length, format, Format.length]

/-! ## All the opcode map and the decoder can answer -/

/-- The instructions of a row carry the row's opcode, format and operands (R72, R93). -/
def RowFits (op : Byte) : OpcodeRow → Prop
  | .one i => i.opcode = op ∧ i.format = .one ∧ i.operands = .none
  | .two make => ∀ r1 r2, (make r1 r2).opcode = op ∧ (make r1 r2).format = .two ∧ (make r1 r2).operands = .regs r1 r2
  | .threeFour make3 make4 =>
    ∀ d, ((make3 d).opcode = op ∧ (make3 d).format = .three ∧ (make3 d).operands = .mem d) ∧
      (make4 d).opcode = op ∧ (make4 d).format = .four ∧ (make4 d).operands = .mem d

theorem opcodeRow_fits {op : Byte} {row : OpcodeRow} (h : opcodeRow op = some row) : RowFits op row := by
  unfold opcodeRow at h
  split at h <;> cases h <;>
    first
      | exact ⟨rfl, rfl, rfl⟩
      | exact fun _ _ => ⟨rfl, rfl, rfl⟩
      | exact fun _ => ⟨⟨rfl, rfl, rfl⟩, rfl, rfl, rfl⟩

/-- All `decode` can answer with an instruction, by the class of its opcode and the e bit (R71 to R78). -/
theorem decode_cases {bytes rest : List Byte} {i : Instr} (h : decode bytes = .ok (i, rest)) :
    ∃ b0 tail, bytes = b0 :: tail ∧
      ((opcodeRow (opcodeOf b0) = some (.one i) ∧ tail = rest) ∨
        (∃ make b1, opcodeRow (opcodeOf b0) = some (.two make) ∧ tail = b1 :: rest ∧
          i = make (b1.extractLsb' 4 4) (b1.extractLsb' 0 4)) ∨
        (∃ make3 make4 b1 b2, opcodeRow (opcodeOf b0) = some (.threeFour make3 make4) ∧ eBit b1 = false ∧
          tail = b1 :: b2 :: rest ∧ i = make3 (memOperandOf b0 b1 (.disp12 (disp12Of b1 b2)))) ∨
        ∃ make3 make4 b1 b2 b3, opcodeRow (opcodeOf b0) = some (.threeFour make3 make4) ∧ eBit b1 = true ∧
          tail = b1 :: b2 :: b3 :: rest ∧ i = make4 (memOperandOf b0 b1 (.addr20 (addr20Of b1 b2 b3)))) := by
  cases bytes with
  | nil => cases h
  | cons b0 tail =>
    refine ⟨b0, tail, rfl, ?_⟩
    simp only [decode] at h
    cases row : opcodeRow (opcodeOf b0) with
    | none => simp only [row] at h; cases h
    | some found =>
      rw [row] at h
      cases found with
      | one j => cases h; exact .inl ⟨rfl, rfl⟩
      | two make =>
        cases tail with
        | nil => cases h
        | cons b1 more => cases h; exact .inr (.inl ⟨make, b1, rfl, rfl, rfl⟩)
      | threeFour make3 make4 =>
        rcases tail with _ | ⟨b1, _ | ⟨b2, more⟩⟩
        · cases h
        · cases h
        · by_cases extended : eBit b1 = true
          · simp only [extended, if_true] at h
            cases more with
            | nil => cases h
            | cons b3 more => cases h; exact .inr (.inr (.inr ⟨make3, make4, b1, b2, b3, rfl, extended, rfl, rfl⟩))
          · simp only [extended, if_false, Bool.false_eq_true] at h
            cases h
            exact .inr (.inr (.inl ⟨make3, make4, b1, b2, rfl, by simpa using extended, rfl, rfl⟩))

/-! ## The pieces of an encoding -/

/-- byte_0 of a format 3/4 encoding gives back the opcode, n and i (R71, R77). -/
theorem encodeByte0_pieces (op : Byte) (d : MemOperand) (clean : opcodeOf op = op) :
    opcodeOf (encodeByte0 op d) = op ∧ (encodeByte0 op d).getLsbD 1 = d.n ∧ (encodeByte0 op d).getLsbD 0 = d.i := by
  have all : ∀ (op : Byte) (n i : Bool), opcodeOf op = op →
      let b : Byte := op.extractLsb' 2 6 ++ (BitVec.ofBool n ++ BitVec.ofBool i : BitVec 2)
      opcodeOf b = op ∧ b.getLsbD 1 = n ∧ b.getLsbD 0 = i := by decide
  exact all op d.n d.i clean

/-- byte_1 of a format 3/4 encoding gives back x, b, p, e and the top of the address field (R77, R78). -/
theorem encodeByte1_pieces (d : MemOperand) (top : BitVec 4) :
    (encodeByte1 d top).getLsbD 7 = d.x ∧ (encodeByte1 d top).getLsbD 6 = d.b ∧ (encodeByte1 d top).getLsbD 5 = d.p ∧
      eBit (encodeByte1 d top) = d.e ∧ (encodeByte1 d top).extractLsb' 0 4 = top := by
  have all : ∀ (x b p e : Bool) (top : BitVec 4),
      let c : Byte := (BitVec.ofBool x ++ BitVec.ofBool b ++ BitVec.ofBool p ++ BitVec.ofBool e : BitVec 4) ++ top
      c.getLsbD 7 = x ∧ c.getLsbD 6 = b ∧ c.getLsbD 5 = p ∧ eBit c = e ∧ c.extractLsb' 0 4 = top := by decide
  exact all d.x d.b d.p d.e top

/-- A displacement is its top four bits followed by its low byte (R77). -/
theorem disp12_split (v : BitVec 12) : v.extractLsb' 8 4 ++ v.extractLsb' 0 8 = v := by
  apply BitVec.eq_of_toNat_eq
  have bound := v.isLt
  rw [BitVec.toNat_append, ← Nat.shiftLeft_add_eq_or_of_lt (BitVec.isLt _), Nat.shiftLeft_eq]
  simp only [BitVec.extractLsb'_toNat, Nat.shiftRight_eq_div_pow]
  omega

/-- An address is its top four bits followed by its two low bytes (R78). -/
theorem addr20_split (v : BitVec 20) :
    v.extractLsb' 16 4 ++ (v.extractLsb' 8 8 ++ v.extractLsb' 0 8 : BitVec 16) = v := by
  apply BitVec.eq_of_toNat_eq
  have bound := v.isLt
  rw [BitVec.toNat_append, ← Nat.shiftLeft_add_eq_or_of_lt (BitVec.isLt _), BitVec.toNat_append,
    ← Nat.shiftLeft_add_eq_or_of_lt (BitVec.isLt _), Nat.shiftLeft_eq, Nat.shiftLeft_eq]
  simp only [BitVec.extractLsb'_toNat, Nat.shiftRight_eq_div_pow]
  omega

end Sys2Proof.Laws
end

