-- ==== Sys2Proof/Laws/Sparse.lean ====
section
/-!
SUPPORT. Reading after writing in a sparse list, for any list, and its canonical form.
-/

namespace Sys2Proof.Machine

variable {α : Type}

@[simp] theorem Sparse.get_nil (default : α) (key : Nat) : Sparse.get default [] key = default := rfl

theorem Sparse.get_erase (default : α) (l : List (Nat × α)) (key other : Nat) :
    Sparse.get default (Sparse.erase l key) other = if other = key then default else Sparse.get default l other := by
  induction l with
  | nil => simp [Sparse.erase]
  | cons entry rest ih =>
    obtain ⟨k, v⟩ := entry
    simp only [Sparse.erase, Sparse.get]
    split
    · subst_vars; rw [ih]; split <;> simp_all
    · simp only [Sparse.get, ih]
      split
      · subst_vars; simp [Ne.symm ‹¬key = k›]
      · rfl

theorem Sparse.get_insert (default : α) (l : List (Nat × α)) (key : Nat) (value : α) (other : Nat)
    (absent : ∀ entry ∈ l, entry.1 ≠ key) :
    Sparse.get default (Sparse.insert l key value) other =
      if other = key then value else Sparse.get default l other := by
  induction l with
  | nil => simp [Sparse.insert, Sparse.get]
  | cons entry rest ih =>
    obtain ⟨k, v⟩ := entry
    have differs : k ≠ key := absent (k, v) (by simp)
    have later : ∀ e ∈ rest, e.1 ≠ key := fun e he => absent e (by simp [he])
    simp only [Sparse.insert]
    split
    · simp [Sparse.get]
    · simp only [Sparse.get, ih later]
      split
      · subst_vars; simp [differs]
      · rfl

theorem Sparse.erase_absent (l : List (Nat × α)) (key : Nat) : ∀ entry ∈ Sparse.erase l key, entry.1 ≠ key := by
  induction l with
  | nil => simp [Sparse.erase]
  | cons entry rest ih =>
    obtain ⟨k, v⟩ := entry
    simp only [Sparse.erase]
    split
    · exact ih
    · intro e he
      rcases List.mem_cons.mp he with rfl | he
      · exact fun h => ‹¬key = k› h.symm
      · exact ih e he

/-- What every key reads as after a write: the one spec lemma of `Sparse.set`. -/
theorem Sparse.get_set [DecidableEq α] (default : α) (l : List (Nat × α)) (key : Nat) (value : α) (other : Nat) :
    Sparse.get default (Sparse.set default l key value) other =
      if other = key then value else Sparse.get default l other := by
  unfold Sparse.set
  split
  · subst_vars; exact Sparse.get_erase value l key other
  · rw [Sparse.get_insert _ _ _ _ _ (Sparse.erase_absent l key), Sparse.get_erase]
    split <;> simp_all

@[simp] theorem Sparse.get_set_same [DecidableEq α] (default : α) (l : List (Nat × α)) (key : Nat) (value : α) :
    Sparse.get default (Sparse.set default l key value) key = value := by
  simp [Sparse.get_set]

theorem Sparse.get_set_other [DecidableEq α] (default : α) (l : List (Nat × α)) (key : Nat) (value : α) {other : Nat}
    (differs : other ≠ key) :
    Sparse.get default (Sparse.set default l key value) other = Sparse.get default l other := by
  simp [Sparse.get_set, differs]

theorem Sparse.wfFrom_mono [DecidableEq α] (default : α) (bound : Nat) {low low' : Nat} (l : List (Nat × α))
    (le : low' ≤ low) (h : Sparse.wfFrom default bound low l = true) : Sparse.wfFrom default bound low' l = true := by
  cases l with
  | nil => rfl
  | cons entry rest =>
    obtain ⟨k, v⟩ := entry
    simp only [Sparse.wfFrom, Bool.and_eq_true, decide_eq_true_eq] at h ⊢
    exact ⟨⟨⟨by omega, h.1.1.2⟩, h.1.2⟩, h.2⟩

theorem Sparse.wfFrom_erase [DecidableEq α] (default : α) (bound low : Nat) (l : List (Nat × α)) (key : Nat)
    (h : Sparse.wfFrom default bound low l = true) : Sparse.wfFrom default bound low (Sparse.erase l key) = true := by
  induction l generalizing low with
  | nil => rfl
  | cons entry rest ih =>
    obtain ⟨k, v⟩ := entry
    simp only [Sparse.wfFrom, Bool.and_eq_true, decide_eq_true_eq] at h
    have kept := ih (k + 1) h.2
    simp only [Sparse.erase]
    split
    · exact Sparse.wfFrom_mono default bound _ (by omega) kept
    · simp only [Sparse.wfFrom, Bool.and_eq_true, decide_eq_true_eq]
      exact ⟨h.1, kept⟩

theorem Sparse.wfFrom_insert [DecidableEq α] (default : α) (bound low : Nat) (l : List (Nat × α)) (key : Nat) (value : α)
    (atLeast : low ≤ key) (below : key < bound) (differs : value ≠ default) (absent : ∀ entry ∈ l, entry.1 ≠ key)
    (h : Sparse.wfFrom default bound low l = true) :
    Sparse.wfFrom default bound low (Sparse.insert l key value) = true := by
  induction l generalizing low with
  | nil => simp [Sparse.insert, Sparse.wfFrom, atLeast, below, differs]
  | cons entry rest ih =>
    obtain ⟨k, v⟩ := entry
    simp only [Sparse.wfFrom, Bool.and_eq_true, decide_eq_true_eq] at h
    have notHere : k ≠ key := absent (k, v) (by simp)
    simp only [Sparse.insert]
    split
    · simp only [Sparse.wfFrom, Bool.and_eq_true, decide_eq_true_eq]
      exact ⟨⟨⟨atLeast, below⟩, differs⟩, ⟨⟨by omega, h.1.1.2⟩, h.1.2⟩, h.2⟩
    · simp only [Sparse.wfFrom, Bool.and_eq_true, decide_eq_true_eq]
      exact ⟨h.1, ih (k + 1) (by omega) (fun e he => absent e (by simp [he])) h.2⟩

/-- A write inside the bound keeps the canonical form. -/
theorem Sparse.wf_set [DecidableEq α] (default : α) (bound : Nat) (l : List (Nat × α)) (key : Nat) (value : α)
    (below : key < bound) (h : Sparse.wf default bound l = true) :
    Sparse.wf default bound (Sparse.set default l key value) = true := by
  unfold Sparse.wf at h ⊢
  unfold Sparse.set
  split
  · exact Sparse.wfFrom_erase default bound 0 l key h
  · exact Sparse.wfFrom_insert default bound 0 _ key value (by omega) below ‹_› (Sparse.erase_absent l key)
      (Sparse.wfFrom_erase default bound 0 l key h)

end Sys2Proof.Machine
end

