-- ==== Sys2Proof/Laws/State.lean ====
section
/-!
SUPPORT. What each update of the state leaves in each of its parts.
-/

namespace Sys2Proof.Machine

@[simp] theorem State.setA_regs (s : State) (v : Word) : (s.setA v).regs = { s.regs with a := v } := rfl
@[simp] theorem State.setA_mem (s : State) (v : Word) : (s.setA v).mem = s.mem := rfl
@[simp] theorem State.setA_dev (s : State) (v : Word) : (s.setA v).dev = s.dev := rfl
@[simp] theorem State.setA_bounds (s : State) (v : Word) : (s.setA v).bounds = s.bounds := rfl
@[simp] theorem State.setA_status (s : State) (v : Word) : (s.setA v).status = s.status := rfl
@[simp] theorem State.setA_steps (s : State) (v : Word) : (s.setA v).steps = s.steps := rfl

@[simp] theorem State.setX_regs (s : State) (v : Word) : (s.setX v).regs = { s.regs with x := v } := rfl
@[simp] theorem State.setX_mem (s : State) (v : Word) : (s.setX v).mem = s.mem := rfl
@[simp] theorem State.setX_dev (s : State) (v : Word) : (s.setX v).dev = s.dev := rfl
@[simp] theorem State.setX_bounds (s : State) (v : Word) : (s.setX v).bounds = s.bounds := rfl
@[simp] theorem State.setX_status (s : State) (v : Word) : (s.setX v).status = s.status := rfl
@[simp] theorem State.setX_steps (s : State) (v : Word) : (s.setX v).steps = s.steps := rfl

@[simp] theorem State.setL_regs (s : State) (v : Word) : (s.setL v).regs = { s.regs with l := v } := rfl
@[simp] theorem State.setL_mem (s : State) (v : Word) : (s.setL v).mem = s.mem := rfl
@[simp] theorem State.setL_dev (s : State) (v : Word) : (s.setL v).dev = s.dev := rfl
@[simp] theorem State.setL_bounds (s : State) (v : Word) : (s.setL v).bounds = s.bounds := rfl
@[simp] theorem State.setL_status (s : State) (v : Word) : (s.setL v).status = s.status := rfl
@[simp] theorem State.setL_steps (s : State) (v : Word) : (s.setL v).steps = s.steps := rfl

@[simp] theorem State.setT_regs (s : State) (v : Word) : (s.setT v).regs = { s.regs with t := v } := rfl
@[simp] theorem State.setT_mem (s : State) (v : Word) : (s.setT v).mem = s.mem := rfl
@[simp] theorem State.setT_dev (s : State) (v : Word) : (s.setT v).dev = s.dev := rfl
@[simp] theorem State.setT_bounds (s : State) (v : Word) : (s.setT v).bounds = s.bounds := rfl
@[simp] theorem State.setT_status (s : State) (v : Word) : (s.setT v).status = s.status := rfl
@[simp] theorem State.setT_steps (s : State) (v : Word) : (s.setT v).steps = s.steps := rfl

@[simp] theorem State.setPc_regs (s : State) (v : Word) : (s.setPc v).regs = { s.regs with pc := v } := rfl
@[simp] theorem State.setPc_mem (s : State) (v : Word) : (s.setPc v).mem = s.mem := rfl
@[simp] theorem State.setPc_dev (s : State) (v : Word) : (s.setPc v).dev = s.dev := rfl
@[simp] theorem State.setPc_bounds (s : State) (v : Word) : (s.setPc v).bounds = s.bounds := rfl
@[simp] theorem State.setPc_status (s : State) (v : Word) : (s.setPc v).status = s.status := rfl
@[simp] theorem State.setPc_steps (s : State) (v : Word) : (s.setPc v).steps = s.steps := rfl

@[simp] theorem State.setSw_regs (s : State) (v : Word) : (s.setSw v).regs = { s.regs with sw := v } := rfl
@[simp] theorem State.setSw_mem (s : State) (v : Word) : (s.setSw v).mem = s.mem := rfl
@[simp] theorem State.setSw_dev (s : State) (v : Word) : (s.setSw v).dev = s.dev := rfl
@[simp] theorem State.setSw_bounds (s : State) (v : Word) : (s.setSw v).bounds = s.bounds := rfl
@[simp] theorem State.setSw_status (s : State) (v : Word) : (s.setSw v).status = s.status := rfl
@[simp] theorem State.setSw_steps (s : State) (v : Word) : (s.setSw v).steps = s.steps := rfl

@[simp] theorem State.setRegs_regs (s : State) (r : Regs) : (s.setRegs r).regs = r := rfl
@[simp] theorem State.setRegs_mem (s : State) (r : Regs) : (s.setRegs r).mem = s.mem := rfl
@[simp] theorem State.setRegs_dev (s : State) (r : Regs) : (s.setRegs r).dev = s.dev := rfl
@[simp] theorem State.setRegs_bounds (s : State) (r : Regs) : (s.setRegs r).bounds = s.bounds := rfl
@[simp] theorem State.setRegs_status (s : State) (r : Regs) : (s.setRegs r).status = s.status := rfl
@[simp] theorem State.setRegs_steps (s : State) (r : Regs) : (s.setRegs r).steps = s.steps := rfl

@[simp] theorem State.setMem_regs (s : State) (m : Memory) : (s.setMem m).regs = s.regs := rfl
@[simp] theorem State.setMem_mem (s : State) (m : Memory) : (s.setMem m).mem = m := rfl
@[simp] theorem State.setMem_dev (s : State) (m : Memory) : (s.setMem m).dev = s.dev := rfl
@[simp] theorem State.setMem_bounds (s : State) (m : Memory) : (s.setMem m).bounds = s.bounds := rfl
@[simp] theorem State.setMem_status (s : State) (m : Memory) : (s.setMem m).status = s.status := rfl
@[simp] theorem State.setMem_steps (s : State) (m : Memory) : (s.setMem m).steps = s.steps := rfl

@[simp] theorem State.setDev_regs (s : State) (ds : Devices) : (s.setDev ds).regs = s.regs := rfl
@[simp] theorem State.setDev_mem (s : State) (ds : Devices) : (s.setDev ds).mem = s.mem := rfl
@[simp] theorem State.setDev_dev (s : State) (ds : Devices) : (s.setDev ds).dev = ds := rfl
@[simp] theorem State.setDev_bounds (s : State) (ds : Devices) : (s.setDev ds).bounds = s.bounds := rfl
@[simp] theorem State.setDev_status (s : State) (ds : Devices) : (s.setDev ds).status = s.status := rfl
@[simp] theorem State.setDev_steps (s : State) (ds : Devices) : (s.setDev ds).steps = s.steps := rfl

@[simp] theorem State.setStatus_regs (s : State) (st : Status) : (s.setStatus st).regs = s.regs := rfl
@[simp] theorem State.setStatus_mem (s : State) (st : Status) : (s.setStatus st).mem = s.mem := rfl
@[simp] theorem State.setStatus_dev (s : State) (st : Status) : (s.setStatus st).dev = s.dev := rfl
@[simp] theorem State.setStatus_bounds (s : State) (st : Status) : (s.setStatus st).bounds = s.bounds := rfl
@[simp] theorem State.setStatus_status (s : State) (st : Status) : (s.setStatus st).status = st := rfl
@[simp] theorem State.setStatus_steps (s : State) (st : Status) : (s.setStatus st).steps = s.steps := rfl

@[simp] theorem State.countStep_regs (s : State) : (s.countStep).regs = s.regs := rfl
@[simp] theorem State.countStep_mem (s : State) : (s.countStep).mem = s.mem := rfl
@[simp] theorem State.countStep_dev (s : State) : (s.countStep).dev = s.dev := rfl
@[simp] theorem State.countStep_bounds (s : State) : (s.countStep).bounds = s.bounds := rfl
@[simp] theorem State.countStep_status (s : State) : (s.countStep).status = s.status := rfl
@[simp] theorem State.countStep_steps (s : State) : (s.countStep).steps = s.steps + 1 := rfl

@[simp] theorem State.raise_regs (s : State) (e : Exception) : (s.raise e).regs = s.regs := rfl
@[simp] theorem State.raise_mem (s : State) (e : Exception) : (s.raise e).mem = s.mem := rfl
@[simp] theorem State.raise_dev (s : State) (e : Exception) : (s.raise e).dev = s.dev := rfl
@[simp] theorem State.raise_bounds (s : State) (e : Exception) : (s.raise e).bounds = s.bounds := rfl
@[simp] theorem State.raise_status (s : State) (e : Exception) : (s.raise e).status = .haltedErr e := rfl
@[simp] theorem State.raise_steps (s : State) (e : Exception) : (s.raise e).steps = s.steps := rfl

@[simp] theorem State.compareWords_regs (s : State) (v w : Word) : (s.compareWords v w).regs = { s.regs with sw := swEnc (cmp24 v w) } := rfl
@[simp] theorem State.compareWords_mem (s : State) (v w : Word) : (s.compareWords v w).mem = s.mem := rfl
@[simp] theorem State.compareWords_dev (s : State) (v w : Word) : (s.compareWords v w).dev = s.dev := rfl
@[simp] theorem State.compareWords_bounds (s : State) (v w : Word) : (s.compareWords v w).bounds = s.bounds := rfl
@[simp] theorem State.compareWords_status (s : State) (v w : Word) : (s.compareWords v w).status = s.status := rfl
@[simp] theorem State.compareWords_steps (s : State) (v w : Word) : (s.compareWords v w).steps = s.steps := rfl

@[simp] theorem State.setDevice_regs (s : State) (id : Byte) (d : Device) : (s.setDevice id d).regs = s.regs := rfl
@[simp] theorem State.setDevice_mem (s : State) (id : Byte) (d : Device) : (s.setDevice id d).mem = s.mem := rfl
@[simp] theorem State.setDevice_dev (s : State) (id : Byte) (d : Device) : (s.setDevice id d).dev = Sparse.set Device.absent s.dev id.toNat d := rfl
@[simp] theorem State.setDevice_bounds (s : State) (id : Byte) (d : Device) : (s.setDevice id d).bounds = s.bounds := rfl
@[simp] theorem State.setDevice_status (s : State) (id : Byte) (d : Device) : (s.setDevice id d).status = s.status := rfl
@[simp] theorem State.setDevice_steps (s : State) (id : Byte) (d : Device) : (s.setDevice id d).steps = s.steps := rfl

@[simp] theorem dispatched_regs (s : State) (i : Instr) : (dispatched s i).regs = { s.regs with pc := s.regs.pc + BitVec.ofNat 24 i.length } := rfl
@[simp] theorem dispatched_mem (s : State) (i : Instr) : (dispatched s i).mem = s.mem := rfl
@[simp] theorem dispatched_dev (s : State) (i : Instr) : (dispatched s i).dev = s.dev := rfl
@[simp] theorem dispatched_bounds (s : State) (i : Instr) : (dispatched s i).bounds = s.bounds := rfl
@[simp] theorem dispatched_status (s : State) (i : Instr) : (dispatched s i).status = .running := rfl
@[simp] theorem dispatched_steps (s : State) (i : Instr) : (dispatched s i).steps = s.steps := rfl

@[simp] theorem Status.enabled_loaded : Status.enabled .loaded = true := rfl
@[simp] theorem Status.enabled_running : Status.enabled .running = true := rfl
@[simp] theorem Status.enabled_haltedOk : Status.enabled .haltedOk = false := rfl
@[simp] theorem Status.enabled_haltedErr (e : Exception) : Status.enabled (.haltedErr e) = false := rfl

end Sys2Proof.Machine
end

