-- ==== Sys2Proof/Laws/Memory.lean ====
section
/-!
SUPPORT. Memory: reading after writing (R52, R55, R58), and the canonical form under every memory operation.
-/

namespace Sys2Proof.Machine

@[simp] theorem Memory.read_nil (a : Nat) : Memory.read [] a = Config.fillByte := rfl

/-- What every address reads as after a byte is written. -/
theorem Memory.read_write (m : Memory) (a : Nat) (v : Byte) (other : Nat) :
    (m.write a v).read other = if other = a then v else m.read other :=
  Sparse.get_set Config.fillByte m a v other

@[simp] theorem Memory.read_write_same (m : Memory) (a : Nat) (v : Byte) : (m.write a v).read a = v := by
  simp [Memory.read_write]

theorem Memory.read_write_other (m : Memory) {a : Nat} (v : Byte) {other : Nat} (differs : other ≠ a) :
    (m.write a v).read other = m.read other := by
  simp [Memory.read_write, differs]

/-- What every address reads as after several bytes are written. -/
theorem Memory.read_writeBytes (m : Memory) (a : Nat) (bytes : List Byte) (other : Nat) :
    (m.writeBytes a bytes).read other =
      if h : a ≤ other ∧ other - a < bytes.length then bytes[other - a]'h.2 else m.read other := by
  induction bytes generalizing m a with
  | nil => simp [Memory.writeBytes]
  | cons v rest ih =>
    simp only [Memory.writeBytes, ih]
    by_cases at_a : other = a
    · subst at_a; simp
    · by_cases later : a + 1 ≤ other ∧ other - (a + 1) < rest.length
      · have step_index : other - a = other - (a + 1) + 1 := by omega
        simp [later, step_index, show a ≤ other by omega]
      · have outside : ¬(a ≤ other ∧ other - a < (v :: rest).length) := by
          simp only [List.length_cons]; omega
        simp only [later, outside, dite_false]
        exact Memory.read_write_other m v at_a

/-- A word store leaves every byte outside its three alone. -/
theorem Memory.read_writeWord_other (m : Memory) (a : Nat) (v : Word) {other : Nat}
    (outside : other < a ∨ a + 3 ≤ other) : (m.writeBytes a (wordBytes v)).read other = m.read other := by
  rw [Memory.read_writeBytes, dite_eq_right_iff.mpr]
  intro inside
  simp only [wordBytes, List.length_cons, List.length_nil] at inside
  omega

/-- The number a big-endian triple of bytes stands for (R52). -/
theorem wordOfBytes_toNat (b0 b1 b2 : Byte) :
    (wordOfBytes b0 b1 b2).toNat = 65536 * b0.toNat + 256 * b1.toNat + b2.toNat := by
  have low : (b1 ++ b2 : BitVec 16).toNat = 256 * b1.toNat + b2.toNat := by
    rw [BitVec.toNat_append, ← Nat.shiftLeft_add_eq_or_of_lt b2.isLt, Nat.shiftLeft_eq]; omega
  unfold wordOfBytes
  rw [BitVec.toNat_append, ← Nat.shiftLeft_add_eq_or_of_lt (b1 ++ b2 : BitVec 16).isLt, low, Nat.shiftLeft_eq]
  omega

/-- A word's three bytes make it up again (R52). -/
@[simp] theorem wordOfBytes_wordBytes (v : Word) :
    wordOfBytes (v.extractLsb' 16 8) (v.extractLsb' 8 8) (v.extractLsb' 0 8) = v := by
  apply BitVec.eq_of_toNat_eq
  have bound := v.isLt
  rw [wordOfBytes_toNat]
  simp only [BitVec.extractLsb'_toNat, Nat.shiftRight_eq_div_pow]
  omega

/-- A word store is read back (R52). -/
theorem Memory.readWord_writeWord (m : Memory) (a : Nat) (v : Word) :
    (m.writeBytes a (wordBytes v)).readWord a = v := by
  simp [Memory.readWord, Memory.read_writeBytes, wordBytes]

theorem Memory.wf_nil : Memory.wf [] = true := rfl

theorem Memory.wf_write (m : Memory) {a : Nat} (v : Byte) (inside : a < Config.memSize) (h : m.wf = true) :
    (m.write a v).wf = true :=
  Sparse.wf_set Config.fillByte Config.memSize m a v inside h

theorem Memory.wf_writeBytes (m : Memory) {a : Nat} (bytes : List Byte) (inside : a + bytes.length ≤ Config.memSize)
    (h : m.wf = true) : (m.writeBytes a bytes).wf = true := by
  induction bytes generalizing m a with
  | nil => exact h
  | cons v rest ih =>
    simp only [List.length_cons] at inside
    exact ih (m.write a v) (by omega) (Memory.wf_write m v (by omega) h)

theorem inMemory_iff (a : Word) (n : Nat) : inMemory a n = true ↔ a.toNat + n ≤ Config.memSize := by
  simp [inMemory]

/-- All a byte read can do (R55). -/
theorem memReadByte_cases (s : State) (a : Word) :
    (inMemory a 1 = true ∧ memReadByte s a = .ok (s.mem.read a.toNat)) ∨
      (inMemory a 1 = false ∧ memReadByte s a = .error (.memoryFault a)) := by
  unfold memReadByte; cases inMemory a 1 <;> simp

/-- All a word read can do (R55). -/
theorem memReadWord_cases (s : State) (a : Word) :
    (inMemory a 3 = true ∧ memReadWord s a = .ok (s.mem.readWord a.toNat)) ∨
      (inMemory a 3 = false ∧ memReadWord s a = .error (.memoryFault a)) := by
  unfold memReadWord; cases inMemory a 3 <;> simp

/-- All a byte write can do (R55). -/
theorem memWriteByte_cases (s : State) (a : Word) (v : Byte) :
    (inMemory a 1 = true ∧ memWriteByte s a v = .ok (s.setMem (s.mem.write a.toNat v))) ∨
      (inMemory a 1 = false ∧ memWriteByte s a v = .error (.memoryFault a)) := by
  unfold memWriteByte; cases inMemory a 1 <;> simp

/-- All a word write can do (R55). -/
theorem memWriteWord_cases (s : State) (a v : Word) :
    (inMemory a 3 = true ∧ memWriteWord s a v = .ok (s.setMem (s.mem.writeBytes a.toNat (wordBytes v)))) ∨
      (inMemory a 3 = false ∧ memWriteWord s a v = .error (.memoryFault a)) := by
  unfold memWriteWord; cases inMemory a 3 <;> simp

/-- A byte write keeps the canonical form. -/
theorem memWriteByte_wf {s t : State} {a : Word} {v : Byte} (h : memWriteByte s a v = .ok t) (wf : s.mem.wf = true) :
    t.mem.wf = true := by
  rcases memWriteByte_cases s a v with ⟨inside, eq⟩ | ⟨_, eq⟩
  · rw [eq] at h; cases h
    exact Memory.wf_write s.mem v (by have := (inMemory_iff a 1).mp inside; omega) wf
  · rw [eq] at h; cases h

/-- A word write keeps the canonical form. -/
theorem memWriteWord_wf {s t : State} {a v : Word} (h : memWriteWord s a v = .ok t) (wf : s.mem.wf = true) :
    t.mem.wf = true := by
  rcases memWriteWord_cases s a v with ⟨inside, eq⟩ | ⟨_, eq⟩
  · rw [eq] at h; cases h
    exact Memory.wf_writeBytes s.mem _ ((inMemory_iff a 3).mp inside) wf
  · rw [eq] at h; cases h

end Sys2Proof.Machine
end

