-- ==== Sys2Proof/Laws/Device.lean ====
section
/-!
SUPPORT. The device operations: all each can do, and the canonical form of the registry.
-/

namespace Sys2Proof.Machine

/-- What every device's record is after one is replaced. -/
theorem State.device_setDevice (s : State) (id : Byte) (d : Device) (other : Byte) :
    (s.setDevice id d).device other = if other = id then d else s.device other := by
  simp only [State.device, State.setDevice_dev, Sparse.get_set, BitVec.toNat_inj]

@[simp] theorem State.device_setDevice_same (s : State) (id : Byte) (d : Device) : (s.setDevice id d).device id = d := by
  simp [State.device_setDevice]

theorem State.setDevice_wf (s : State) (id : Byte) (d : Device) (h : s.dev.wf = true) : (s.setDevice id d).dev.wf = true :=
  Sparse.wf_set Device.absent Config.deviceCount s.dev id.toNat d id.isLt h

/-- All the checks of RD and WD can do (R161, R162, R243). -/
theorem deviceChecked_cases (s : State) (id : Byte) (other : DeviceUse) :
    ((s.device id).avail = false ∧ deviceChecked s id other = .error (.deviceUnavailable id)) ∨
    ((s.device id).avail = true ∧ (s.device id).used = other ∧
      deviceChecked s id other = .error (.deviceDirectionConflict id)) ∨
    ((s.device id).avail = true ∧ (s.device id).used ≠ other ∧ deviceChecked s id other = .ok (s.device id)) := by
  unfold deviceChecked
  by_cases available : (s.device id).avail = true
  · by_cases same : (s.device id).used = other <;> simp [available, same]
  · simp at available; simp [available]

/-- All a readiness probe can do (R160). -/
theorem devProbe_cases (s : State) (id : Byte) :
    ((s.device id).avail = false ∧ devProbe s id = s.setSw 0#24) ∨
    ((s.device id).avail = true ∧
      devProbe s id =
        (s.setDevice id { s.device id with polls := (s.device id).polls + 1 }).setSw
          (if Config.tdReady id (s.device id).polls then 1#24 else 0#24)) := by
  unfold devProbe
  by_cases available : (s.device id).avail = true
  · simp [available]
  · simp at available; simp [available]

/-- All a device read that completes can do (R161): a byte, or the end of the stream. -/
theorem devRead_ok {s t : State} {id : Byte} (h : devRead s id = .ok t) :
    (s.device id).avail = true ∧ (s.device id).used ≠ .write ∧
    ((∃ v, (s.device id).input[(s.device id).rpos]? = some v ∧
        t = (s.setDevice id { s.device id with rpos := (s.device id).rpos + 1, used := .read }).setA (v.setWidth 24)) ∨
      ((s.device id).input[(s.device id).rpos]? = none ∧
        t = (s.setDevice id { s.device id with used := .read }).setA 0#24)) := by
  unfold devRead at h
  rcases deviceChecked_cases s id .write with ⟨_, eq⟩ | ⟨_, _, eq⟩ | ⟨available, used, eq⟩
  · rw [eq] at h; cases h
  · rw [eq] at h; cases h
  · rw [eq] at h
    refine ⟨available, used, ?_⟩
    cases read : (s.device id).input[(s.device id).rpos]? with
    | some v => simp only [read] at h; cases h; exact .inl ⟨v, rfl, rfl⟩
    | none => simp only [read] at h; cases h; exact .inr ⟨rfl, rfl⟩

/-- All a device write that completes can do (R162). -/
theorem devWrite_ok {s t : State} {id v : Byte} (h : devWrite s id v = .ok t) :
    (s.device id).avail = true ∧ (s.device id).used ≠ .read ∧
      t = s.setDevice id { s.device id with out := (s.device id).out ++ [v], used := .write } := by
  unfold devWrite at h
  rcases deviceChecked_cases s id .read with ⟨_, eq⟩ | ⟨_, _, eq⟩ | ⟨available, used, eq⟩
  · rw [eq] at h; cases h
  · rw [eq] at h; cases h
  · rw [eq] at h; cases h; exact ⟨available, used, rfl⟩

end Sys2Proof.Machine
end

