-- ==== Sys2Proof/Laws/Operands.lean ====
section
/-!
SUPPORT. The operand forms: what each resolution function answers, by the addressing mode (R86 to R88), and how an
instruction ends.
-/

namespace Sys2Proof.Machine

/-- An operand's mode is one of the three (R86). -/
theorem addressingMode_cases (d : MemOperand) :
    addressingMode d = .simple ∨ addressingMode d = .immediate ∨ addressingMode d = .indirect := by
  unfold addressingMode
  cases d.n <;> cases d.i <;> simp

/-- FIELD: the immediate value is the field (R87). -/
@[simp] theorem immediateValue_field (d : MemOperand) (ea : Word) : immediateValue .field d ea = immediateField d := by
  unfold immediateValue; split <;> simp_all

/-- TARGET: the immediate value is the effective address (R87). -/
@[simp] theorem immediateValue_target (d : MemOperand) (ea : Word) : immediateValue .target d ea = ea := by
  unfold immediateValue; split <;> rfl

/-- The two readings agree when b = p = x = 0 (R87). -/
theorem immediateValue_plain (source : ImmediateValueSource) (d : MemOperand) (pcNext rB rX : Word)
    (noB : d.b = false) (noP : d.p = false) (noX : d.x = false) :
    immediateValue source d (effAddr d pcNext rB rX) = immediateField d := by
  have agree : effAddr d pcNext rB rX = immediateField d := by
    simp only [effAddr, noX, baseAddress, noP, noB, immediateField]
    cases d.field <;> rfl
  simp [immediateValue, agree]

theorem opAddr_simple {d : MemOperand} {s : State} (mode : addressingMode d = .simple) :
    opAddr d s = .ok (operandEa d s) := by simp [opAddr, mode]

theorem opAddr_indirect {d : MemOperand} {s : State} (mode : addressingMode d = .indirect) :
    opAddr d s = memReadWord s (operandEa d s) := by simp [opAddr, mode]

theorem wordOperand_immediate {d : MemOperand} {s : State} (mode : addressingMode d = .immediate) :
    wordOperand d s = .ok (operandImmediate d s) := by simp [wordOperand, mode]

theorem wordOperand_memory {d : MemOperand} {s : State} (mode : addressingMode d ≠ .immediate) :
    wordOperand d s = (opAddr d s).bind (memReadWord s) := by
  unfold wordOperand; cases h : addressingMode d <;> simp_all

theorem byteOperand_immediate {d : MemOperand} {s : State} (mode : addressingMode d = .immediate) :
    byteOperand d s = .ok ((operandImmediate d s).extractLsb' 0 8) := by simp [byteOperand, mode]

theorem byteOperand_memory {d : MemOperand} {s : State} (mode : addressingMode d ≠ .immediate) :
    byteOperand d s = (opAddr d s).bind (memReadByte s) := by
  unfold byteOperand; cases h : addressingMode d <;> simp_all

theorem addressOperand_immediate {m : Mnemonic} {d : MemOperand} {s : State} (mode : addressingMode d = .immediate) :
    addressOperand m d s = .error (.illegalAddressingMode (instructionAddress s d.length) m) := by
  simp [addressOperand, mode]

theorem addressOperand_memory {m : Mnemonic} {d : MemOperand} {s : State} (mode : addressingMode d ≠ .immediate) :
    addressOperand m d s = opAddr d s := by
  unfold addressOperand; cases h : addressingMode d <;> simp_all

@[simp] theorem complete_ok (s t : State) : complete s (.ok t) = .next t := rfl

@[simp] theorem complete_error (s : State) (e : Exception) : complete s (.error e) = .next (s.raise e) := rfl

/-- All an instruction's end can be: its writes committed, or all discarded and the fault taken (R281). -/
theorem complete_cases {s t : State} {r : Except Exception State} (h : complete s r = .next t) :
    r = .ok t ∨ ∃ e, r = .error e ∧ t = s.raise e := by
  cases r with
  | ok u => simp only [complete_ok, Host.Outcome.next.injEq] at h; exact .inl (by rw [h])
  | error e => simp only [complete_error, Host.Outcome.next.injEq] at h; exact .inr ⟨e, rfl, h.symm⟩

/-- The end of an instruction that resolves one operand and then writes. -/
theorem complete_map_cases {α : Type} {s t : State} {r : Except Exception α} {write : α → State}
    (h : complete s (r.map write) = .next t) :
    (∃ v, r = .ok v ∧ t = write v) ∨ ∃ e, r = .error e ∧ t = s.raise e := by
  cases r with
  | ok v => simp only [Except.map, complete_ok, Host.Outcome.next.injEq] at h; exact .inl ⟨v, rfl, h.symm⟩
  | error e => simp only [Except.map, complete_error, Host.Outcome.next.injEq] at h; exact .inr ⟨e, rfl, h.symm⟩

/-- The end of an instruction that resolves one operand and then makes an access that can fault. -/
theorem complete_bind_cases {α : Type} {s t : State} {r : Except Exception α} {access : α → Except Exception State}
    (h : complete s (r.bind access) = .next t) :
    (∃ v, r = .ok v ∧ access v = .ok t) ∨ ∃ e, t = s.raise e := by
  cases r with
  | ok v =>
    rcases complete_cases (r := access v) (by simpa [Except.bind] using h) with ok | ⟨e, _, eq⟩
    · exact .inl ⟨v, rfl, ok⟩
    · exact .inr ⟨e, eq⟩
  | error e => simp only [Except.bind, complete_error, Host.Outcome.next.injEq] at h; exact .inr ⟨e, h.symm⟩

end Sys2Proof.Machine
end

