-- ==== Sys2Proof/Laws/Exec.lean ====
section
/-!
SUPPORT. All an executed instruction can do, said once: the fault it takes, or the one effect of its mnemonic.
-/

namespace Sys2Proof.Machine

/-- The effect of an instruction that did not fault: from `s` to `t`. -/
inductive Effect (i : Instr) (s t : State) : Prop where
  | clear (r1 r2 : RegField) (n : RegName) (instr : i = .clear r1 r2) (named : regNamed r1 = some n)
      (eq : t = s.setRegs (s.regs.put n 0#24))
  | compr (r1 r2 : RegField) (v1 v2 : Word) (instr : i = .compr r1 r2) (eq : t = s.compareWords v1 v2)
  | tixr (r1 r2 : RegField) (v : Word) (instr : i = .tixr r1 r2)
      (eq : t = (s.setX (s.regs.x + 1#24)).compareWords (s.regs.x + 1#24) v)
  | loadA (v : Word) (name : i.mnemonic = some .lda ∨ i.mnemonic = some .ldch) (eq : t = s.setA v)
  | loadT (v : Word) (name : i.mnemonic = some .ldt) (eq : t = s.setT v)
  | storeWord (a v : Word) (name : i.mnemonic = some .sta ∨ i.mnemonic = some .stl ∨ i.mnemonic = some .stx)
      (wrote : memWriteWord s a v = .ok t)
  | storeByte (a : Word) (v : Byte) (name : i.mnemonic = some .stch) (wrote : memWriteByte s a v = .ok t)
  | compare (v w : Word) (name : i.mnemonic = some .comp) (eq : t = s.compareWords v w)
  | jump (v : Word) (name : i.mnemonic = some .j ∨ i.mnemonic = some .jeq ∨ i.mnemonic = some .jlt) (eq : t = s.setPc v)
  | stay (name : i.mnemonic = some .jeq ∨ i.mnemonic = some .jlt) (eq : t = s)
  | link (v : Word) (name : i.mnemonic = some .jsub) (eq : t = (s.setL s.regs.pc).setPc v)
  | ret (name : i.mnemonic = some .rsub) (eq : t = s.setPc s.regs.l)
  | test (d : MemOperand) (id : Byte) (name : i.mnemonic = some .td) (operand : i.operands = .mem d)
      (device : deviceId .td d s = .ok id) (eq : t = devProbe s id)
  | read (d : MemOperand) (id : Byte) (name : i.mnemonic = some .rd) (operand : i.operands = .mem d)
      (device : deviceId .rd d s = .ok id) (did : devRead s id = .ok t)
  | write (d : MemOperand) (id v : Byte) (name : i.mnemonic = some .wd) (operand : i.operands = .mem d)
      (device : deviceId .wd d s = .ok id) (did : devWrite s id v = .ok t)

/-- What an executed instruction answers: its fault, with nothing else changed, or its effect (R180, R281). -/
def Answers (i : Instr) (s t : State) : Prop := (∃ e, t = s.raise e) ∨ Effect i s t

theorem loadWord_answers {i : Instr} {put : State → Word → State} {d : MemOperand} {s t : State}
    (h : loadWord put d s = .next t) (effect : ∀ v, t = put s v → Effect i s t) : Answers i s t := by
  rcases complete_map_cases h with ⟨v, _, eq⟩ | ⟨e, _, eq⟩
  · exact .inr (effect v eq)
  · exact .inl ⟨e, eq⟩

theorem storeWord_answers {i : Instr} {m : Mnemonic} {d : MemOperand} {v : Word} {s t : State}
    (h : storeWord m d v s = .next t)
    (name : i.mnemonic = some .sta ∨ i.mnemonic = some .stl ∨ i.mnemonic = some .stx) : Answers i s t := by
  rcases complete_bind_cases h with ⟨a, _, wrote⟩ | fault
  · exact .inr (.storeWord a v name wrote)
  · exact .inl fault

theorem loadLowByte_answers {i : Instr} {d : MemOperand} {s t : State} (h : loadLowByte d s = .next t)
    (name : i.mnemonic = some .ldch) : Answers i s t := by
  rcases complete_map_cases h with ⟨v, _, eq⟩ | ⟨e, _, eq⟩
  · exact .inr (.loadA _ (.inr name) eq)
  · exact .inl ⟨e, eq⟩

theorem storeLowByte_answers {i : Instr} {d : MemOperand} {s t : State} (h : storeLowByte d s = .next t)
    (name : i.mnemonic = some .stch) : Answers i s t := by
  rcases complete_bind_cases h with ⟨a, _, wrote⟩ | fault
  · exact .inr (.storeByte a _ name wrote)
  · exact .inl fault

theorem compareA_answers {i : Instr} {d : MemOperand} {s t : State} (h : compareA d s = .next t)
    (name : i.mnemonic = some .comp) : Answers i s t := by
  rcases complete_map_cases h with ⟨v, _, eq⟩ | ⟨e, _, eq⟩
  · exact .inr (.compare _ v name eq)
  · exact .inl ⟨e, eq⟩

theorem jump_answers {i : Instr} {m : Mnemonic} {d : MemOperand} {s t : State} (h : jumpIf true m d s = .next t)
    (name : i.mnemonic = some .j) : Answers i s t := by
  rcases complete_map_cases h with ⟨v, _, eq⟩ | ⟨e, _, eq⟩
  · exact .inr (.jump v (.inl name) eq)
  · exact .inl ⟨e, eq⟩

theorem jumpIf_answers {i : Instr} {taken : Bool} {m : Mnemonic} {d : MemOperand} {s t : State}
    (h : jumpIf taken m d s = .next t) (name : i.mnemonic = some .jeq ∨ i.mnemonic = some .jlt) : Answers i s t := by
  rcases complete_map_cases h with ⟨v, _, eq⟩ | ⟨e, _, eq⟩
  · cases taken with
    | true => exact .inr (.jump v (.inr name) eq)
    | false => exact .inr (.stay name eq)
  · exact .inl ⟨e, eq⟩

theorem jumpAndLink_answers {i : Instr} {d : MemOperand} {s t : State} (h : jumpAndLink d s = .next t)
    (name : i.mnemonic = some .jsub) : Answers i s t := by
  rcases complete_map_cases h with ⟨v, _, eq⟩ | ⟨e, _, eq⟩
  · exact .inr (.link v name eq)
  · exact .inl ⟨e, eq⟩

theorem returnFromSubroutine_answers {i : Instr} {s t : State} (h : returnFromSubroutine s = .next t)
    (name : i.mnemonic = some .rsub) : Answers i s t := by
  rcases complete_cases h with ok | ⟨e, err, _⟩
  · exact .inr (.ret name (Except.ok.inj ok).symm)
  · cases err

theorem testDevice_answers {i : Instr} {d : MemOperand} {s t : State} (h : testDevice d s = .next t)
    (name : i.mnemonic = some .td) (operand : i.operands = .mem d) : Answers i s t := by
  rcases complete_map_cases h with ⟨id, device, eq⟩ | ⟨e, _, eq⟩
  · exact .inr (.test d id name operand device eq)
  · exact .inl ⟨e, eq⟩

theorem readDevice_answers {i : Instr} {d : MemOperand} {s t : State} (h : readDevice d s = .next t)
    (name : i.mnemonic = some .rd) (operand : i.operands = .mem d) : Answers i s t := by
  rcases complete_bind_cases h with ⟨id, device, did⟩ | fault
  · exact .inr (.read d id name operand device did)
  · exact .inl fault

theorem writeDevice_answers {i : Instr} {d : MemOperand} {s t : State} (h : writeDevice d s = .next t)
    (name : i.mnemonic = some .wd) (operand : i.operands = .mem d) : Answers i s t := by
  rcases complete_bind_cases h with ⟨id, device, did⟩ | fault
  · exact .inr (.write d id _ name operand device did)
  · exact .inl fault

theorem clear_answers {r1 r2 : RegField} {s t : State} (h : execClear r1 r2 s = .next t) :
    Answers (.clear r1 r2) s t := by
  rcases complete_map_cases h with ⟨n, num, eq⟩ | ⟨e, _, eq⟩
  · refine .inr (.clear r1 r2 n rfl ?_ eq)
    unfold regNum at num
    cases named : regNamed r1 with
    | some m => rw [named] at num; exact congrArg some (Except.ok.inj num)
    | none => rw [named] at num; cases num
  · exact .inl ⟨e, eq⟩

theorem compr_answers {r1 r2 : RegField} {s t : State} (h : execCompr r1 r2 s = .next t) :
    Answers (.compr r1 r2) s t := by
  rcases complete_bind_cases h with ⟨v1, _, second⟩ | fault
  · cases read : regRead s r2 with
    | ok v2 => rw [read] at second; exact .inr (.compr r1 r2 v1 v2 rfl (Except.ok.inj second).symm)
    | error e => rw [read] at second; cases second
  · exact .inl fault

theorem tixr_answers {r1 r2 : RegField} {s t : State} (h : execTixr r1 r2 s = .next t) :
    Answers (.tixr r1 r2) s t := by
  rcases complete_bind_cases h with ⟨_, _, second⟩ | fault
  · cases read : regRead (s.setX (s.regs.x + 1#24)) r1 with
    | ok v => simp only [read, Except.map, Except.ok.injEq] at second; exact .inr (.tixr r1 r2 v rfl second.symm)
    | error e => simp only [read, Except.map] at second; cases second
  · exact .inl fault

theorem unknownMnemonic_answers {i : Instr} {length : Nat} {opcode : Byte} {s t : State}
    (h : unknownMnemonic length opcode s = .next t) : Answers i s t := by
  rcases complete_cases h with ok | ⟨e, _, eq⟩
  · cases ok
  · exact .inl ⟨e, eq⟩

/-- All `exec` can answer with a next state: the inversion lemma that statements over all instructions are derived from. -/
theorem exec_cases {i : Instr} {s t : State} (h : exec i s = .next t) : Answers i s t := by
  cases i with
  | lda d => exact loadWord_answers h fun v eq => .loadA v (.inl rfl) eq
  | ldaE d => exact loadWord_answers h fun v eq => .loadA v (.inl rfl) eq
  | ldx d => exact unknownMnemonic_answers h
  | ldxE d => exact unknownMnemonic_answers h
  | ldl d => exact unknownMnemonic_answers h
  | ldlE d => exact unknownMnemonic_answers h
  | sta d => exact storeWord_answers h (.inl rfl)
  | staE d => exact storeWord_answers h (.inl rfl)
  | stx d => exact storeWord_answers h (.inr (.inr rfl))
  | stxE d => exact storeWord_answers h (.inr (.inr rfl))
  | stl d => exact storeWord_answers h (.inr (.inl rfl))
  | stlE d => exact storeWord_answers h (.inr (.inl rfl))
  | add d => exact unknownMnemonic_answers h
  | addE d => exact unknownMnemonic_answers h
  | sub d => exact unknownMnemonic_answers h
  | subE d => exact unknownMnemonic_answers h
  | mul d => exact unknownMnemonic_answers h
  | mulE d => exact unknownMnemonic_answers h
  | div d => exact unknownMnemonic_answers h
  | divE d => exact unknownMnemonic_answers h
  | comp d => exact compareA_answers h rfl
  | compE d => exact compareA_answers h rfl
  | tix d => exact unknownMnemonic_answers h
  | tixE d => exact unknownMnemonic_answers h
  | jeq d => exact jumpIf_answers h (.inl rfl)
  | jeqE d => exact jumpIf_answers h (.inl rfl)
  | jgt d => exact unknownMnemonic_answers h
  | jgtE d => exact unknownMnemonic_answers h
  | jlt d => exact jumpIf_answers h (.inr rfl)
  | jltE d => exact jumpIf_answers h (.inr rfl)
  | j d => exact jump_answers h rfl
  | jE d => exact jump_answers h rfl
  | and d => exact unknownMnemonic_answers h
  | andE d => exact unknownMnemonic_answers h
  | or d => exact unknownMnemonic_answers h
  | orE d => exact unknownMnemonic_answers h
  | jsub d => exact jumpAndLink_answers h rfl
  | jsubE d => exact jumpAndLink_answers h rfl
  | rsub d => exact returnFromSubroutine_answers h rfl
  | rsubE d => exact returnFromSubroutine_answers h rfl
  | ldch d => exact loadLowByte_answers h rfl
  | ldchE d => exact loadLowByte_answers h rfl
  | stch d => exact storeLowByte_answers h rfl
  | stchE d => exact storeLowByte_answers h rfl
  | addf d => exact unknownMnemonic_answers h
  | addfE d => exact unknownMnemonic_answers h
  | subf d => exact unknownMnemonic_answers h
  | subfE d => exact unknownMnemonic_answers h
  | mulf d => exact unknownMnemonic_answers h
  | mulfE d => exact unknownMnemonic_answers h
  | divf d => exact unknownMnemonic_answers h
  | divfE d => exact unknownMnemonic_answers h
  | ldb d => exact unknownMnemonic_answers h
  | ldbE d => exact unknownMnemonic_answers h
  | lds d => exact unknownMnemonic_answers h
  | ldsE d => exact unknownMnemonic_answers h
  | ldf d => exact unknownMnemonic_answers h
  | ldfE d => exact unknownMnemonic_answers h
  | ldt d => exact loadWord_answers h fun v eq => .loadT v rfl eq
  | ldtE d => exact loadWord_answers h fun v eq => .loadT v rfl eq
  | stb d => exact unknownMnemonic_answers h
  | stbE d => exact unknownMnemonic_answers h
  | sts d => exact unknownMnemonic_answers h
  | stsE d => exact unknownMnemonic_answers h
  | stf d => exact unknownMnemonic_answers h
  | stfE d => exact unknownMnemonic_answers h
  | stt d => exact unknownMnemonic_answers h
  | sttE d => exact unknownMnemonic_answers h
  | compf d => exact unknownMnemonic_answers h
  | compfE d => exact unknownMnemonic_answers h
  | addr r1 r2 => exact unknownMnemonic_answers h
  | subr r1 r2 => exact unknownMnemonic_answers h
  | mulr r1 r2 => exact unknownMnemonic_answers h
  | divr r1 r2 => exact unknownMnemonic_answers h
  | compr r1 r2 => exact compr_answers h
  | shiftl r1 r2 => exact unknownMnemonic_answers h
  | shiftr r1 r2 => exact unknownMnemonic_answers h
  | rmo r1 r2 => exact unknownMnemonic_answers h
  | svc r1 r2 => exact unknownMnemonic_answers h
  | clear r1 r2 => exact clear_answers h
  | tixr r1 r2 => exact tixr_answers h
  | float => exact unknownMnemonic_answers h
  | fix => exact unknownMnemonic_answers h
  | norm => exact unknownMnemonic_answers h
  | lps d => exact unknownMnemonic_answers h
  | lpsE d => exact unknownMnemonic_answers h
  | sti d => exact unknownMnemonic_answers h
  | stiE d => exact unknownMnemonic_answers h
  | rd d => exact readDevice_answers h rfl rfl
  | rdE d => exact readDevice_answers h rfl rfl
  | wd d => exact writeDevice_answers h rfl rfl
  | wdE d => exact writeDevice_answers h rfl rfl
  | td d => exact testDevice_answers h rfl rfl
  | tdE d => exact testDevice_answers h rfl rfl
  | stsw d => exact unknownMnemonic_answers h
  | stswE d => exact unknownMnemonic_answers h
  | ssk d => exact unknownMnemonic_answers h
  | sskE d => exact unknownMnemonic_answers h
  | sio => exact unknownMnemonic_answers h
  | hio => exact unknownMnemonic_answers h
  | tio => exact unknownMnemonic_answers h
  | none8C d => exact unknownMnemonic_answers h
  | none8CE d => exact unknownMnemonic_answers h
  | noneBC d => exact unknownMnemonic_answers h
  | noneBCE d => exact unknownMnemonic_answers h
  | noneCC d => exact unknownMnemonic_answers h
  | noneCCE d => exact unknownMnemonic_answers h
  | noneE4 d => exact unknownMnemonic_answers h
  | noneE4E d => exact unknownMnemonic_answers h
  | noneFC d => exact unknownMnemonic_answers h
  | noneFCE d => exact unknownMnemonic_answers h

/-- The end of an instruction is always a next state: a fault is taken, not left (R244). -/
theorem complete_next (s : State) (r : Except Exception State) : ∃ t, complete s r = .next t := by
  cases r with
  | ok t => exact ⟨t, rfl⟩
  | error e => exact ⟨s.raise e, rfl⟩

/-- `exec` answers a next state for every instruction in every state. -/
theorem exec_next (i : Instr) (s : State) : ∃ t, exec i s = .next t := by
  cases i <;> first | exact complete_next _ _ | exact ⟨_, rfl⟩

end Sys2Proof.Machine
end

