-- ==== Sys2Proof/Machine/Launch.lean ====
section
/-!
DEFINITION. The launch (spec/70_reset_and_hazards.md R270 to R273, R275(b); R43): the boundary scan of the loader's Pass 3 and
the state a completed load leaves. What the loader and the host supply is an argument (R7; log entries 4 to 6 and 10).
-/

namespace Sys2Proof.Machine

/-- The boundary scan from address `a` on (R272). Each round moves on by at least one byte, so `fuel` bytes of extent are
enough fuel. -/
def scanFrom (m : Memory) (extent : Nat) : Nat → Nat → List DecodedInstruction
  | 0, _ => []
  | fuel + 1, a =>
    if a < extent then
      if m.read a = Config.fillByte then scanFrom m extent fuel (a + 1)
      else
        let length := (formatOf (m.read a) (m.read (a + 1))).length
        if a + length ≤ Config.memSize then
          match recordOf (BitVec.ofNat 24 a) (m.readBytes a length) with
          | .ok r => r :: scanFrom m extent fuel (a + length)
          | .error _ => []
        else []
    else []

/-- `BoundaryScan(mem, load_extent)` (R272). -/
def boundaryScan (m : Memory) (extent : Nat) : List DecodedInstruction := scanFrom m extent extent 0

/-- What the loader and the host supply at launch (R7, R43, R270, R287). -/
structure Launch where
  /-- The bytes the load wrote, by address; one outside memory is no part of the image (log entry 10). -/
  image : List Host.Cell
  /-- `load_extent` (R272). -/
  extent : Nat
  /-- `PC0` (R273). -/
  pc0 : Word
  /-- `init_regs`: its A, X, B, S, T, SW and F are used; L and PC are the block's and the loader's (R43). -/
  initRegs : Regs
  /-- `devices`: the available devices and their input bytes (R39, R43). -/
  devices : List (Byte × List Byte)
  deriving DecidableEq, Repr

/-- The launch memory: the image over fill bytes (R43, R59). -/
def Launch.memory (p : Launch) : Memory :=
  p.image.foldl (fun m c => if c.1 < Config.memSize then m.write c.1 c.2 else m) []

/-- The device registry at launch: cursors at 0, nothing written, no direction chosen (R43, R169). -/
def Launch.registry (p : Launch) : Devices :=
  p.devices.foldl
    (fun ds c => Sparse.set Device.absent ds c.1.toNat { Device.absent with avail := true, input := c.2 }) []

/-- The state at launch (R43, R270, R275(b)). -/
def State.launch (p : Launch) : State :=
  { regs := { p.initRegs with l := Config.initialL, pc := p.pc0 }
    mem := p.memory
    dev := p.registry
    bounds := boundaryScan p.memory p.extent
    status := if p.pc0 = Config.haltPc then .haltedOk else .loaded
    steps := 0 }

/-- The loader's errors (R241). -/
inductive LoadError where
  | malformedRecord
  | duplicateSymbol
  | undefinedSymbol
  deriving DecidableEq, Repr

/-- `load`: it replaces the whole state; after a load error there is no launch (R241, R270, R271, R287). -/
def load (loaded : Except LoadError Launch) : Option State :=
  match loaded with
  | .ok p => some (State.launch p)
  | .error _ => none

end Sys2Proof.Machine
end

