-- ==== Sys2Proof/Laws/Launch.lean ====
section
/-!
SUPPORT. One round of the boundary scan (R272): the extent's end, a fill byte, an instruction that does not fit, one that does.
-/

namespace Sys2Proof.Machine

theorem scanFrom_end {m : Memory} {extent fuel a : Nat} (past : extent ≤ a) : scanFrom m extent fuel a = [] := by
  cases fuel with
  | zero => rfl
  | succ fuel => simp [scanFrom, Nat.not_lt.mpr past]

theorem scanFrom_fill {m : Memory} {extent fuel a : Nat} (below : a < extent) (fill : m.read a = Config.fillByte) :
    scanFrom m extent (fuel + 1) a = scanFrom m extent fuel (a + 1) := by
  simp [scanFrom, below, fill]

theorem scanFrom_stop {m : Memory} {extent fuel a : Nat} (code : m.read a ≠ Config.fillByte)
    (tooLong : Config.memSize < a + (formatOf (m.read a) (m.read (a + 1))).length) :
    scanFrom m extent (fuel + 1) a = [] := by
  have not_fits : ¬ a + (formatOf (m.read a) (m.read (a + 1))).length ≤ Config.memSize := by omega
  simp only [scanFrom, code, if_false, not_fits, ite_self]

theorem scanFrom_record {m : Memory} {extent fuel a : Nat} {r : DecodedInstruction} (below : a < extent)
    (code : m.read a ≠ Config.fillByte)
    (fits : a + (formatOf (m.read a) (m.read (a + 1))).length ≤ Config.memSize)
    (found : recordOf (BitVec.ofNat 24 a) (m.readBytes a (formatOf (m.read a) (m.read (a + 1))).length) = .ok r) :
    scanFrom m extent (fuel + 1) a =
      r :: scanFrom m extent fuel (a + (formatOf (m.read a) (m.read (a + 1))).length) := by
  simp only [scanFrom, below, if_true, code, if_false, fits, found]

/-- A stretch of fill bytes is skipped (R272). -/
theorem scanFrom_skips_fill {m : Memory} {extent fuel : Nat} (n a : Nat) (below : a + n ≤ extent)
    (fill : ∀ k < n, m.read (a + k) = Config.fillByte) :
    scanFrom m extent (n + fuel) a = scanFrom m extent fuel (a + n) := by
  induction n generalizing a with
  | zero => simp
  | succ n ih =>
    have rest := ih (a + 1) (by omega) fun k lt => by
      have := fill (k + 1) (by omega)
      rwa [show a + 1 + k = a + (k + 1) by omega]
    rw [show n + 1 + fuel = (n + fuel) + 1 by omega, scanFrom_fill (a := a) (by omega) (by simpa using fill 0 (by omega)), rest,
      show a + 1 + n = a + (n + 1) by omega]

end Sys2Proof.Machine
end

