-- ==== Sys2Proof/Laws/PerInstr.lean ====
section
/-!
SUPPORT. The family `EncodeLength`: an instruction's encoding has the length of its format (R74), one lemma per constructor.
-/

namespace Sys2Proof.Laws.EncodeLength

/-- The encoding of a well-formed instruction is as long as its format says (R74). -/
def Statement (i : Instr) : Prop := i.wellFormed = true → (encode i).length = i.length

theorem lda (d : MemOperand) : Statement (.lda d) := encode_length_three rfl rfl
theorem ldaE (d : MemOperand) : Statement (.ldaE d) := encode_length_four rfl rfl
theorem ldx (d : MemOperand) : Statement (.ldx d) := encode_length_three rfl rfl
theorem ldxE (d : MemOperand) : Statement (.ldxE d) := encode_length_four rfl rfl
theorem ldl (d : MemOperand) : Statement (.ldl d) := encode_length_three rfl rfl
theorem ldlE (d : MemOperand) : Statement (.ldlE d) := encode_length_four rfl rfl
theorem sta (d : MemOperand) : Statement (.sta d) := encode_length_three rfl rfl
theorem staE (d : MemOperand) : Statement (.staE d) := encode_length_four rfl rfl
theorem stx (d : MemOperand) : Statement (.stx d) := encode_length_three rfl rfl
theorem stxE (d : MemOperand) : Statement (.stxE d) := encode_length_four rfl rfl
theorem stl (d : MemOperand) : Statement (.stl d) := encode_length_three rfl rfl
theorem stlE (d : MemOperand) : Statement (.stlE d) := encode_length_four rfl rfl
theorem add (d : MemOperand) : Statement (.add d) := encode_length_three rfl rfl
theorem addE (d : MemOperand) : Statement (.addE d) := encode_length_four rfl rfl
theorem sub (d : MemOperand) : Statement (.sub d) := encode_length_three rfl rfl
theorem subE (d : MemOperand) : Statement (.subE d) := encode_length_four rfl rfl
theorem mul (d : MemOperand) : Statement (.mul d) := encode_length_three rfl rfl
theorem mulE (d : MemOperand) : Statement (.mulE d) := encode_length_four rfl rfl
theorem div (d : MemOperand) : Statement (.div d) := encode_length_three rfl rfl
theorem divE (d : MemOperand) : Statement (.divE d) := encode_length_four rfl rfl
theorem comp (d : MemOperand) : Statement (.comp d) := encode_length_three rfl rfl
theorem compE (d : MemOperand) : Statement (.compE d) := encode_length_four rfl rfl
theorem tix (d : MemOperand) : Statement (.tix d) := encode_length_three rfl rfl
theorem tixE (d : MemOperand) : Statement (.tixE d) := encode_length_four rfl rfl
theorem jeq (d : MemOperand) : Statement (.jeq d) := encode_length_three rfl rfl
theorem jeqE (d : MemOperand) : Statement (.jeqE d) := encode_length_four rfl rfl
theorem jgt (d : MemOperand) : Statement (.jgt d) := encode_length_three rfl rfl
theorem jgtE (d : MemOperand) : Statement (.jgtE d) := encode_length_four rfl rfl
theorem jlt (d : MemOperand) : Statement (.jlt d) := encode_length_three rfl rfl
theorem jltE (d : MemOperand) : Statement (.jltE d) := encode_length_four rfl rfl
theorem j (d : MemOperand) : Statement (.j d) := encode_length_three rfl rfl
theorem jE (d : MemOperand) : Statement (.jE d) := encode_length_four rfl rfl
theorem and (d : MemOperand) : Statement (.and d) := encode_length_three rfl rfl
theorem andE (d : MemOperand) : Statement (.andE d) := encode_length_four rfl rfl
theorem or (d : MemOperand) : Statement (.or d) := encode_length_three rfl rfl
theorem orE (d : MemOperand) : Statement (.orE d) := encode_length_four rfl rfl
theorem jsub (d : MemOperand) : Statement (.jsub d) := encode_length_three rfl rfl
theorem jsubE (d : MemOperand) : Statement (.jsubE d) := encode_length_four rfl rfl
theorem rsub (d : MemOperand) : Statement (.rsub d) := encode_length_three rfl rfl
theorem rsubE (d : MemOperand) : Statement (.rsubE d) := encode_length_four rfl rfl
theorem ldch (d : MemOperand) : Statement (.ldch d) := encode_length_three rfl rfl
theorem ldchE (d : MemOperand) : Statement (.ldchE d) := encode_length_four rfl rfl
theorem stch (d : MemOperand) : Statement (.stch d) := encode_length_three rfl rfl
theorem stchE (d : MemOperand) : Statement (.stchE d) := encode_length_four rfl rfl
theorem addf (d : MemOperand) : Statement (.addf d) := encode_length_three rfl rfl
theorem addfE (d : MemOperand) : Statement (.addfE d) := encode_length_four rfl rfl
theorem subf (d : MemOperand) : Statement (.subf d) := encode_length_three rfl rfl
theorem subfE (d : MemOperand) : Statement (.subfE d) := encode_length_four rfl rfl
theorem mulf (d : MemOperand) : Statement (.mulf d) := encode_length_three rfl rfl
theorem mulfE (d : MemOperand) : Statement (.mulfE d) := encode_length_four rfl rfl
theorem divf (d : MemOperand) : Statement (.divf d) := encode_length_three rfl rfl
theorem divfE (d : MemOperand) : Statement (.divfE d) := encode_length_four rfl rfl
theorem ldb (d : MemOperand) : Statement (.ldb d) := encode_length_three rfl rfl
theorem ldbE (d : MemOperand) : Statement (.ldbE d) := encode_length_four rfl rfl
theorem lds (d : MemOperand) : Statement (.lds d) := encode_length_three rfl rfl
theorem ldsE (d : MemOperand) : Statement (.ldsE d) := encode_length_four rfl rfl
theorem ldf (d : MemOperand) : Statement (.ldf d) := encode_length_three rfl rfl
theorem ldfE (d : MemOperand) : Statement (.ldfE d) := encode_length_four rfl rfl
theorem ldt (d : MemOperand) : Statement (.ldt d) := encode_length_three rfl rfl
theorem ldtE (d : MemOperand) : Statement (.ldtE d) := encode_length_four rfl rfl
theorem stb (d : MemOperand) : Statement (.stb d) := encode_length_three rfl rfl
theorem stbE (d : MemOperand) : Statement (.stbE d) := encode_length_four rfl rfl
theorem sts (d : MemOperand) : Statement (.sts d) := encode_length_three rfl rfl
theorem stsE (d : MemOperand) : Statement (.stsE d) := encode_length_four rfl rfl
theorem stf (d : MemOperand) : Statement (.stf d) := encode_length_three rfl rfl
theorem stfE (d : MemOperand) : Statement (.stfE d) := encode_length_four rfl rfl
theorem stt (d : MemOperand) : Statement (.stt d) := encode_length_three rfl rfl
theorem sttE (d : MemOperand) : Statement (.sttE d) := encode_length_four rfl rfl
theorem compf (d : MemOperand) : Statement (.compf d) := encode_length_three rfl rfl
theorem compfE (d : MemOperand) : Statement (.compfE d) := encode_length_four rfl rfl
theorem addr (r1 r2 : RegField) : Statement (.addr r1 r2) := fun _ => rfl
theorem subr (r1 r2 : RegField) : Statement (.subr r1 r2) := fun _ => rfl
theorem mulr (r1 r2 : RegField) : Statement (.mulr r1 r2) := fun _ => rfl
theorem divr (r1 r2 : RegField) : Statement (.divr r1 r2) := fun _ => rfl
theorem compr (r1 r2 : RegField) : Statement (.compr r1 r2) := fun _ => rfl
theorem shiftl (r1 r2 : RegField) : Statement (.shiftl r1 r2) := fun _ => rfl
theorem shiftr (r1 r2 : RegField) : Statement (.shiftr r1 r2) := fun _ => rfl
theorem rmo (r1 r2 : RegField) : Statement (.rmo r1 r2) := fun _ => rfl
theorem svc (r1 r2 : RegField) : Statement (.svc r1 r2) := fun _ => rfl
theorem clear (r1 r2 : RegField) : Statement (.clear r1 r2) := fun _ => rfl
theorem tixr (r1 r2 : RegField) : Statement (.tixr r1 r2) := fun _ => rfl
theorem float : Statement .float := fun _ => rfl
theorem fix : Statement .fix := fun _ => rfl
theorem norm : Statement .norm := fun _ => rfl
theorem lps (d : MemOperand) : Statement (.lps d) := encode_length_three rfl rfl
theorem lpsE (d : MemOperand) : Statement (.lpsE d) := encode_length_four rfl rfl
theorem sti (d : MemOperand) : Statement (.sti d) := encode_length_three rfl rfl
theorem stiE (d : MemOperand) : Statement (.stiE d) := encode_length_four rfl rfl
theorem rd (d : MemOperand) : Statement (.rd d) := encode_length_three rfl rfl
theorem rdE (d : MemOperand) : Statement (.rdE d) := encode_length_four rfl rfl
theorem wd (d : MemOperand) : Statement (.wd d) := encode_length_three rfl rfl
theorem wdE (d : MemOperand) : Statement (.wdE d) := encode_length_four rfl rfl
theorem td (d : MemOperand) : Statement (.td d) := encode_length_three rfl rfl
theorem tdE (d : MemOperand) : Statement (.tdE d) := encode_length_four rfl rfl
theorem stsw (d : MemOperand) : Statement (.stsw d) := encode_length_three rfl rfl
theorem stswE (d : MemOperand) : Statement (.stswE d) := encode_length_four rfl rfl
theorem ssk (d : MemOperand) : Statement (.ssk d) := encode_length_three rfl rfl
theorem sskE (d : MemOperand) : Statement (.sskE d) := encode_length_four rfl rfl
theorem sio : Statement .sio := fun _ => rfl
theorem hio : Statement .hio := fun _ => rfl
theorem tio : Statement .tio := fun _ => rfl
theorem none8C (d : MemOperand) : Statement (.none8C d) := encode_length_three rfl rfl
theorem none8CE (d : MemOperand) : Statement (.none8CE d) := encode_length_four rfl rfl
theorem noneBC (d : MemOperand) : Statement (.noneBC d) := encode_length_three rfl rfl
theorem noneBCE (d : MemOperand) : Statement (.noneBCE d) := encode_length_four rfl rfl
theorem noneCC (d : MemOperand) : Statement (.noneCC d) := encode_length_three rfl rfl
theorem noneCCE (d : MemOperand) : Statement (.noneCCE d) := encode_length_four rfl rfl
theorem noneE4 (d : MemOperand) : Statement (.noneE4 d) := encode_length_three rfl rfl
theorem noneE4E (d : MemOperand) : Statement (.noneE4E d) := encode_length_four rfl rfl
theorem noneFC (d : MemOperand) : Statement (.noneFC d) := encode_length_three rfl rfl
theorem noneFCE (d : MemOperand) : Statement (.noneFCE d) := encode_length_four rfl rfl

end Sys2Proof.Laws.EncodeLength
end

