-- ==== Sys2Proof/Laws/Step.lean ====
section
/-!
SUPPORT. All a fetch and a step can do (R276), said once.
-/

namespace Sys2Proof.Machine

/-- What it takes for a fetch to give an instruction (R276, R277). -/
theorem fetch_run_iff (s : State) (i : Instr) :
    fetch s = .run i ↔
      ∃ r rest, boundaryAt s.bounds s.regs.pc = some r ∧ recordedBytesHold s.mem r = true ∧
        decode r.rawBytes = .ok (i, rest) := by
  unfold fetch
  constructor
  · intro h
    split at h
    · cases h
    · rename_i r found
      split at h
      · rename_i hold
        split at h
        · rename_i j rest decoded; cases h; exact ⟨r, rest, found, hold, decoded⟩
        · cases h
      · cases h
  · rintro ⟨r, rest, found, hold, decoded⟩
    simp [found, hold, decoded]

/-- The record a boundary lookup finds is in the list and starts at the address. -/
theorem boundaryAt_some {bounds : List DecodedInstruction} {a : Word} {r : DecodedInstruction}
    (h : boundaryAt bounds a = some r) : r ∈ bounds ∧ r.address = a := by
  unfold boundaryAt at h
  exact ⟨List.mem_of_find?_eq_some h, by simpa using List.find?_some h⟩

@[simp] theorem retire_next (t : State) : retire (.next t) = .next (sentinelHalt t.countStep) := rfl

/-- The sentinel test changes the status alone, and that of a running machine at the sentinel alone (R275). -/
theorem sentinelHalt_cases (s : State) :
    (s.status = .running ∧ s.regs.pc = Config.haltPc ∧ sentinelHalt s = s.setStatus .haltedOk) ∨
      (¬(s.status = .running ∧ s.regs.pc = Config.haltPc) ∧ sentinelHalt s = s) := by
  unfold sentinelHalt
  by_cases h : s.status = .running ∧ s.regs.pc = Config.haltPc
  · exact .inl ⟨h.1, h.2, if_pos h⟩
  · exact .inr ⟨h, if_neg h⟩

@[simp] theorem sentinelHalt_regs (s : State) : (sentinelHalt s).regs = s.regs := by
  unfold sentinelHalt; split <;> rfl

@[simp] theorem sentinelHalt_mem (s : State) : (sentinelHalt s).mem = s.mem := by
  unfold sentinelHalt; split <;> rfl

@[simp] theorem sentinelHalt_dev (s : State) : (sentinelHalt s).dev = s.dev := by
  unfold sentinelHalt; split <;> rfl

@[simp] theorem sentinelHalt_bounds (s : State) : (sentinelHalt s).bounds = s.bounds := by
  unfold sentinelHalt; split <;> rfl

@[simp] theorem sentinelHalt_steps (s : State) : (sentinelHalt s).steps = s.steps := by
  unfold sentinelHalt; split <;> rfl

/-- All a step that gives a next state can have done: a fault before dispatch, or one instruction executed and retired. -/
theorem step_cases {s t : State} (h : step s = .next t) :
    s.status.enabled = true ∧
      ((∃ e, fetch s = .stop e ∧ t = s.raise e) ∨
        ∃ i u, fetch s = .run i ∧ exec i (dispatched s i) = .next u ∧ t = sentinelHalt u.countStep) := by
  unfold step at h
  split at h
  · rename_i enabled
    refine ⟨enabled, ?_⟩
    split at h
    · rename_i i found
      cases done : exec i (dispatched s i) with
      | next u =>
        rw [done, retire_next, Host.Outcome.next.injEq] at h
        exact .inr ⟨i, u, found, done, h.symm⟩
      | fault r => rw [done] at h; cases h
      | refused r => rw [done] at h; cases h
    · rename_i e found
      rw [Host.Outcome.next.injEq] at h
      exact .inl ⟨e, found, h.symm⟩
    · cases h
  · cases h

end Sys2Proof.Machine
end

