-- ==== Sys2Proof/Machine/Run.lean ====
section
/-!
DEFINITION. What the host sees of a step and of a run: StepResult (R98, R252, R278) and runToHalt (R279). No rule of the
machine reads any of it.
-/

namespace Sys2Proof.Machine

/-- Halted, of either kind (R274). -/
def Status.halted (st : Status) : Bool := !st.enabled

/-- The fault that ended the run (R244). -/
def Status.faulted : Status → Option Exception
  | .haltedErr e => some e
  | .loaded => none
  | .running => none
  | .haltedOk => none

/-- `StepResult` (R252, R278), with the fault a faulting step reports (R244). -/
structure StepResult where
  /-- Absent for NoInstructionAtAddress. -/
  executed : Option DecodedInstruction
  registersAfter : Regs
  effectiveAddressUsed : Option Word
  halted : Bool
  fault : Option Exception
  deriving DecidableEq, Repr

/-- The instruction is RSUB, which has no operand (R89). -/
def isRsub (i : Instr) : Bool := i.mnemonic == some .rsub

/-- `effective_address_used` of an instruction dispatched in `s` (R98): OpAddr under SIMPLE and INDIRECT, with semantics or
without; absent under IMMEDIATE, for RSUB and for formats 1 and 2. Where the pointer read of OpAddr faults there is no operand
address, and it is absent too (DEDUCED, log entry 16). -/
def effectiveAddressUsed (i : Instr) (s : State) : Option Word :=
  match i.operands with
  | .mem d =>
    if isRsub i then none
    else
      match addressingMode d with
      | .simple | .indirect => (opAddr d s).toOption
      | .immediate | .absent => none
  | .none | .regs _ _ => none

/-- The result of a step from `s` that gave `t` (R278). -/
def stepResult (s t : State) : StepResult :=
  { executed := boundaryAt s.bounds s.regs.pc
    registersAfter := t.regs
    effectiveAddressUsed :=
      match fetch s with
      | .run i => effectiveAddressUsed i (dispatched s i)
      | .stop _ => none
      | .undecodable => none
    halted := t.status.halted
    fault := t.status.faulted }

/-- How a call of runToHalt stands when its fuel is used (R279). -/
inductive RunOutcome where
  /-- The call returns: the results of its steps, in order, and the halted state it leaves. -/
  | ended (results : List StepResult) (last : State)
  /-- The fuel is used up before the machine halted: the call goes on. It gives the state so far. -/
  | unfinished (results : List StepResult) (current : State)
  /-- The model refuses the next step (log entry 13). -/
  | refused (results : List StepResult) (r : Refusal)
  deriving DecidableEq, Repr

/-- The outcome with one more result in front. -/
def RunOutcome.after (first : StepResult) : RunOutcome → RunOutcome
  | .ended results last => .ended (first :: results) last
  | .unfinished results current => .unfinished (first :: results) current
  | .refused results r => .refused (first :: results) r

/-- runToHalt (R236, R279): step until Halted, testing `steps` against the limit before each step. The spec bounds the rounds by
nothing but the test, which a call that starts past the limit never meets, so `fuel` is an argument: each round uses one, and
more fuel never changes a call that ended (log entry 9). -/
def runToHalt (limit : Nat) : (fuel : Nat) → State → RunOutcome
  | 0, s => .unfinished [] s
  | fuel + 1, s =>
    if s.status.halted then .ended [] s
    else if s.steps = limit then .ended [] (s.raise (.stepLimitExceeded s.steps))
    else
      match step s with
      | .next t => (runToHalt limit fuel t).after (stepResult s t)
      | .fault .halted => .ended [] s
      | .refused r => .refused [] r

end Sys2Proof.Machine
end

