-- ==== Sys2Proof/Safety.lean ====
section
/-!
DEFINITION. What the claims call a good state and a good run.
-/

namespace Sys2Proof.Safety

open Sys2Proof.Machine

/-- A step of the machine. -/
def Steps (s t : State) : Prop := Machine.step s = .next t

/-- The states a run from `s` passes through. -/
inductive Reaches (s : State) : State → Prop where
  | here : Reaches s s
  | step {t u : State} : Reaches s t → Steps t u → Reaches s u

/-- A run of steps with the result of each, in order (R278). -/
inductive Trace : State → List StepResult → State → Prop where
  | here (s : State) : Trace s [] s
  | step {s t u : State} {results : List StepResult} :
      Steps s t → Trace t results u → Trace s (stepResult s t :: results) u

/-- What a call of runToHalt returns, as R279 says it, with no bound on the rounds: it returns from a halted state; else it
stops where `steps` equals the limit; else it takes a step and goes on. -/
inductive RunsToHalt (limit : Nat) : State → List StepResult → State → Prop where
  | halted {s : State} : s.status.halted = true → RunsToHalt limit s [] s
  | limit {s : State} : s.status.halted = false → s.steps = limit →
      RunsToHalt limit s [] (s.raise (.stepLimitExceeded s.steps))
  | step {s t u : State} {results : List StepResult} : s.status.halted = false → s.steps ≠ limit → Steps s t →
      RunsToHalt limit t results u → RunsToHalt limit s (stepResult s t :: results) u

/-- A successful end of a run: Halted(ok), and nothing else (R246, R285). -/
def Succeeded (s : State) : Prop := s.status = .haltedOk

/-- A faulted end of a run, never a successful one (R246, R285). -/
def Faulted (s : State) : Prop := ∃ e, s.status = .haltedErr e

/-- The observation of a successful run: the registers, memory and the output of every device (R285). -/
def observation (s : State) : Regs × Memory × (Byte → List Byte) := (s.regs, s.mem, fun id => (s.device id).out)

/-- The fairness a TD wait loop's end rests on (R168): from any draw on, an available device answers ready at some later one.
The model does not assume it (log entry 19). -/
def TdFair (ready : Byte → Nat → Bool) : Prop := ∀ id n, ∃ m, n ≤ m ∧ ready id m = true

/-- A device as the rules leave it (R39, R161, R162, R165 to R167): the cursor lies in the input; a device not yet used has
neither been read nor written, one in use has gone in one direction alone, and only an available device is in use. -/
def deviceOk (d : Device) : Prop :=
  d.rpos ≤ d.input.length ∧
  (d.used ≠ .read → d.rpos = 0) ∧
  (d.used ≠ .write → d.out = []) ∧
  (d.avail = false → d.used = .unused)

/-- The architectural content of SW: less, equal or greater (R30). -/
def swOk (sw : Word) : Prop := sw = 0xFFFFFF#24 ∨ sw = 0x000000#24 ∨ sw = 0x000001#24

/-- A boundary list as the scan makes it (R272, R273): each record is the decoding of its raw bytes, lies in memory and starts at
no fill byte, and the records stand in address order without overlap, from address `low` on. -/
def boundsOkFrom : Nat → List DecodedInstruction → Prop
  | _, [] => True
  | low, r :: rest =>
    recordOf r.address r.rawBytes = .ok r ∧
    r.rawBytes.length = r.length ∧
    r.rawBytes.head? ≠ some Config.fillByte ∧
    low ≤ r.address.toNat ∧
    r.address.toNat + r.length ≤ Config.memSize ∧
    boundsOkFrom (r.address.toNat + r.length) rest

/-- A boundary list as the scan makes it (R273). -/
def boundsOk (bs : List DecodedInstruction) : Prop := boundsOkFrom 0 bs

/-- The invariant of the machine: memory and the device registry keep their canonical forms, every device is as the rules
leave it, the boundary list is one the scan makes, and no step is enabled at the sentinel (R273, R275). -/
structure Inv (s : State) : Prop where
  memory : s.mem.wf = true
  devices : s.dev.wf = true
  device : ∀ id, deviceOk (s.device id)
  bounds : boundsOk s.bounds
  sentinel : s.status.enabled = true → s.regs.pc ≠ Config.haltPc

end Sys2Proof.Safety
end

