-- ==== Sys2Proof/Laws/Run.lean ====
section
/-!
SUPPORT. Step results and runToHalt (R98, R278, R279): the address a step reports, by mode, and one round of runToHalt.
-/

namespace Sys2Proof.Machine

/-! ## The address a step reports -/

theorem effectiveAddressUsed_simple {i : Instr} {d : MemOperand} {s : State} (operand : i.operands = .mem d)
    (other : isRsub i = false) (mode : addressingMode d = .simple) : effectiveAddressUsed i s = some (operandEa d s) := by
  simp [effectiveAddressUsed, operand, other, mode, opAddr, Except.toOption]

theorem effectiveAddressUsed_indirect {i : Instr} {d : MemOperand} {s : State} (operand : i.operands = .mem d)
    (other : isRsub i = false) (mode : addressingMode d = .indirect) :
    effectiveAddressUsed i s = (memReadWord s (operandEa d s)).toOption := by
  simp [effectiveAddressUsed, operand, other, mode, opAddr]

theorem effectiveAddressUsed_immediate {i : Instr} {d : MemOperand} {s : State} (operand : i.operands = .mem d)
    (mode : addressingMode d = .immediate) : effectiveAddressUsed i s = none := by
  simp [effectiveAddressUsed, operand, mode]

theorem effectiveAddressUsed_rsub {i : Instr} {s : State} (rsub : isRsub i = true) : effectiveAddressUsed i s = none := by
  unfold effectiveAddressUsed
  split <;> simp [rsub]

/-! ## The fields of a step's result -/

@[simp] theorem stepResult_executed (s t : State) : (stepResult s t).executed = boundaryAt s.bounds s.regs.pc := rfl
@[simp] theorem stepResult_registersAfter (s t : State) : (stepResult s t).registersAfter = t.regs := rfl
@[simp] theorem stepResult_halted (s t : State) : (stepResult s t).halted = t.status.halted := rfl
@[simp] theorem stepResult_fault (s t : State) : (stepResult s t).fault = t.status.faulted := rfl

theorem stepResult_address_run {s t : State} {i : Instr} (found : fetch s = .run i) :
    (stepResult s t).effectiveAddressUsed = effectiveAddressUsed i (dispatched s i) := by
  simp [stepResult, found]

theorem stepResult_address_stop {s t : State} {e : Exception} (found : fetch s = .stop e) :
    (stepResult s t).effectiveAddressUsed = none := by
  simp [stepResult, found]

/-! ## One round of runToHalt -/

theorem runToHalt_halted {limit fuel : Nat} {s : State} (halted : s.status.halted = true) :
    runToHalt limit (fuel + 1) s = .ended [] s := by
  simp [runToHalt, halted]

theorem runToHalt_limit {limit fuel : Nat} {s : State} (running : s.status.halted = false) (reached : s.steps = limit) :
    runToHalt limit (fuel + 1) s = .ended [] (s.raise (.stepLimitExceeded s.steps)) := by
  simp [runToHalt, running, reached]

theorem runToHalt_next {limit fuel : Nat} {s t : State} (running : s.status.halted = false) (short : s.steps ≠ limit)
    (next : step s = .next t) : runToHalt limit (fuel + 1) s = (runToHalt limit fuel t).after (stepResult s t) := by
  simp [runToHalt, running, short, next]

@[simp] theorem RunOutcome.after_eq_ended {first : StepResult} {o : RunOutcome} {results : List StepResult} {last : State} :
    o.after first = .ended results last ↔ ∃ rest, results = first :: rest ∧ o = .ended rest last := by
  cases o <;> simp [RunOutcome.after, eq_comm, and_comm]

/-- All a call that ended can have done in its first round. -/
theorem runToHalt_ended_cases {limit fuel : Nat} {s u : State} {results : List StepResult}
    (h : runToHalt limit fuel s = .ended results u) :
    ∃ less, fuel = less + 1 ∧
      ((s.status.halted = true ∧ results = [] ∧ u = s) ∨
        (s.status.halted = false ∧ s.steps = limit ∧ results = [] ∧ u = s.raise (.stepLimitExceeded s.steps)) ∨
        ∃ t rest, s.status.halted = false ∧ s.steps ≠ limit ∧ step s = .next t ∧ results = stepResult s t :: rest ∧
          runToHalt limit less t = .ended rest u) := by
  cases fuel with
  | zero => cases h
  | succ less =>
    refine ⟨less, rfl, ?_⟩
    cases halted : s.status.halted with
    | true =>
      rw [runToHalt_halted halted] at h
      cases h; exact .inl ⟨rfl, rfl, rfl⟩
    | false =>
      by_cases reached : s.steps = limit
      · rw [runToHalt_limit halted reached] at h
        cases h; exact .inr (.inl ⟨rfl, reached, rfl, rfl⟩)
      · cases did : step s with
        | next t =>
          rw [runToHalt_next halted reached did, RunOutcome.after_eq_ended] at h
          obtain ⟨rest, eq, ended⟩ := h
          exact .inr (.inr ⟨t, rest, rfl, reached, rfl, eq, ended⟩)
        | fault r =>
          have enabled : s.status.enabled = true := by simpa [Status.halted] using halted
          simp only [step, enabled, if_true] at did
          split at did
          · obtain ⟨v, done⟩ := exec_next _ (dispatched s _)
            rw [done] at did; cases did
          · cases did
          · cases did
        | refused r => simp [runToHalt, halted, reached, did] at h

end Sys2Proof.Machine
end

