-- ==== Sys2Proof/Certificates/Slice0/Obligations.lean ====
section
/-!
DEFINITION. The statements for the provers. A statement about `exec` speaks of the state Execute sees, in which PC already
holds PCnext (R10). `operandAt` and `deviceAt` below say which address and which device an operand names, with the same
functions the meanings use.
-/

namespace Sys2Proof.Claims

open Sys2Proof.Machine

/-- The operand address of a SIMPLE or INDIRECT operand: EA, or the word stored at EA where that word lies in memory. An
IMMEDIATE operand has none (R86, R88). -/
def operandAt (d : MemOperand) (s : State) (a : Word) : Bool :=
  match addressingMode d with
  | .simple => a == operandEa d s
  | .indirect => decide ((operandEa d s).toNat + 2 ≤ 0xFFFF) && (a == s.mem.readWord (operandEa d s).toNat)
  | .immediate | .absent => false

/-- The device a TD, RD or WD operand names: the byte at its operand address, which lies in memory (R88). -/
def deviceAt (d : MemOperand) (s : State) (a : Word) (id : Byte) : Bool :=
  operandAt d s a && decide (a.toNat ≤ 0xFFFF) && (id == s.mem.read a.toNat)

/-- SW after comparing `v` with `w` as signed 24-bit numbers (R9, R30). -/
def comparisonCode (v w : Word) : Word :=
  if v.toInt < w.toInt then 0xFFFFFF#24 else if v.toInt = w.toInt then 0x000000#24 else 0x000001#24

/-- The integer register a register number names (R22, R90): A, X, L, B, S, T, PC and SW; not F, not an unassigned number. -/
def registerValue (r : Regs) (k : RegField) : Option Word :=
  if k = 0#4 then some r.a
  else if k = 1#4 then some r.x
  else if k = 2#4 then some r.l
  else if k = 3#4 then some r.b
  else if k = 4#4 then some r.s
  else if k = 5#4 then some r.t
  else if k = 8#4 then some r.pc
  else if k = 9#4 then some r.sw
  else none

/-- The 19 mnemonics with semantics (R5, R180). -/
def implemented : List Mnemonic :=
  [.clear, .compr, .tixr, .lda, .ldt, .ldch, .sta, .stl, .stx, .stch, .comp, .j, .jeq, .jlt, .jsub, .rsub, .td, .rd, .wd]

/-- The instruction, executed in `s`, transfers control (R35, R110, R141 to R145): an unconditional or a taken jump, or
CLEAR PC. -/
def transfersControl (i : Instr) (s : State) : Bool :=
  match i with
  | .j _ | .jE _ | .jsub _ | .jsubE _ | .rsub _ | .rsubE _ => true
  | .jeq _ | .jeqE _ => s.regs.sw == 0#24
  | .jlt _ | .jltE _ => decide (s.regs.sw.toInt < 0)
  | .clear r1 _ => r1 == 8#4
  | _ => false

/-- `s` with another pattern in the floating register. -/
def withFloat (s : State) (f : FloatPattern) : State := { s with regs := { s.regs with f := f } }

end Sys2Proof.Claims

open Sys2Proof Sys2Proof.Machine Sys2Proof.Safety Sys2Proof.Claims

/-! ## Decoding and encoding -/

/-- Decoding the encoding of any well-formed instruction, with any bytes after it, gives it back (R71 to R80, R92, R93). -/
def Obligations.DecodeOfEncode : Prop :=
  ∀ (i : Instr) (rest : List Byte), i.wellFormed = true → decode (encode i ++ rest) = .ok (i, rest)

/-- What decodes is well formed and encodes to the bytes it was read from, but for the ignored low bits of byte_0 in formats 1
and 2 (R71, R75 to R78). So no two instructions share a word. That the encoder writes those bits 0 is the model's choice
(log entry 22). -/
def Obligations.EncodeOfDecode : Prop :=
  ∀ (bytes rest : List Byte) (i : Instr), decode bytes = .ok (i, rest) →
    i.wellFormed = true ∧ ∃ used, bytes = used ++ rest ∧ used.length = i.length ∧
      encode i = if i.format = .one ∨ i.format = .two then used.modifyHead opcodeOf else used

/-- R91: every byte sequence long enough for its own length decodes, to the record that R91 lists, and no step changes a
record. -/
def Obligations.DecodeIsTotal : Prop :=
  (∀ (a : Word) (b0 : Byte) (tail : List Byte),
    (∀ b1 ∈ (tail.head?), (formatOf b0 b1).length ≤ (b0 :: tail).length) →
    (tail = [] → (formatOf b0 0#8).length = 1) →
    ∃ r, recordOf a (b0 :: tail) = .ok r ∧ r.address = a ∧ r.opcode = b0 &&& 0xFC#8 ∧
      r.mnemonic = Mnemonic.ofOpcode (b0 &&& 0xFC#8) ∧ r.format = formatOf b0 (tail.headD 0#8) ∧
      r.rawBytes = (b0 :: tail).take r.length ∧ r.rawBytes.length = r.length) ∧
  (∀ (a : Word) (bytes : List Byte) (r : DecodedInstruction), recordOf a bytes = .ok r →
    (r.format = .one ∨ r.format = .two → r.flags = ⟨false, false, false, false, false, false⟩) ∧
    (∀ b0 b1 tail, bytes = b0 :: b1 :: tail → r.format = .three ∨ r.format = .four →
      r.flags = ⟨b0.getLsbD 1, b0.getLsbD 0, b1.getLsbD 7, b1.getLsbD 6, b1.getLsbD 5, b1.getLsbD 4⟩)) ∧
  (∀ s t : State, step s = .next t → t.bounds = s.bounds)

/-- R74: the length in bytes equals the format number; the decoder takes that many bytes and PC advances by them; byte_0 alone
tells the length in formats 1 and 2, byte_0 and byte_1 in formats 3 and 4. -/
def Obligations.LengthEqualsFormatNumber : Prop :=
  (∀ (bytes rest : List Byte) (i : Instr), decode bytes = .ok (i, rest) →
    bytes.length = i.length + rest.length ∧
    i.length = (match i.format with | .one => 1 | .two => 2 | .three => 3 | .four => 4) ∧
    ∀ b0 b1 tail, bytes = b0 :: b1 :: tail → i.format = formatOf b0 b1) ∧
  (∀ b0 b1 : Byte, formatOf b0 b1 = .one ∨ formatOf b0 b1 = .two → ∀ c1 : Byte, formatOf b0 c1 = formatOf b0 b1) ∧
  (∀ (s : State) (i : Instr), (dispatched s i).regs.pc = s.regs.pc + BitVec.ofNat 24 i.length)

/-- R71: the opcode is byte_0 AND 0xFC, and the low two bits of byte_0 never take part in selecting the instruction, whatever
the format: they change no format, no length and no mnemonic, and in formats 1 and 2 nothing at all. -/
def Obligations.LowBitsSelectNothing : Prop :=
  ∀ (b0 c0 : Byte) (tail rest : List Byte) (i : Instr),
    b0 &&& 0xFC#8 = c0 &&& 0xFC#8 → decode (b0 :: tail) = .ok (i, rest) →
    i.opcode = b0 &&& 0xFC#8 ∧
    ∃ j, decode (c0 :: tail) = .ok (j, rest) ∧ j.opcode = i.opcode ∧ j.format = i.format ∧ j.mnemonic = i.mnemonic ∧
      (i.format = .one ∨ i.format = .two → j = i)

/-- Words written out from the encodings of R75 to R78 decode to the instructions they stand for: RSUB, CLEAR X, +JSUB
0x02010, LDA @0x010, STCH indexed PC-relative, FIX, and the unassigned opcode 0xFC. -/
def Obligations.WrittenOutWordsDecode : Prop :=
  decode [0x4F#8, 0x00#8, 0x00#8] = .ok (.rsub ⟨true, true, false, false, false, .disp12 0x000#12⟩, []) ∧
  decode [0xB4#8, 0x10#8] = .ok (.clear 1#4 0#4, []) ∧
  decode [0x4B#8, 0x10#8, 0x20#8, 0x10#8] = .ok (.jsubE ⟨true, true, false, false, false, .addr20 0x02010#20⟩, []) ∧
  decode [0x02#8, 0x00#8, 0x10#8] = .ok (.lda ⟨true, false, false, false, false, .disp12 0x010#12⟩, []) ∧
  decode [0x57#8, 0xA0#8, 0x0B#8] = .ok (.stch ⟨true, true, true, false, true, .disp12 0x00B#12⟩, []) ∧
  decode [0xC4#8] = .ok (.fix, []) ∧
  decode [0xFC#8, 0x00#8, 0x00#8] = .ok (.noneFC ⟨false, false, false, false, false, .disp12 0x000#12⟩, [])

/-! ## Operands -/

/-- The effective address of R81 to R85, as arithmetic: absolute in format 4; else p first, PC-relative and base-relative with
the displacement read as a signed number and taken modulo 2^24, direct with it unsigned; then X added modulo 2^24. The same of
the address the executing machine computes, with its PC (which is PCnext), its B and its X. -/
def Obligations.EffectiveAddressArithmetic : Prop :=
  ∀ (d : MemOperand) (pcNext rB rX : Word),
    (∀ v, d.field = .addr20 v → (baseAddress d pcNext rB).toNat = v.toNat) ∧
    (∀ v, d.field = .disp12 v →
      (d.p = true → ((baseAddress d pcNext rB).toNat : Int) = (pcNext.toNat + v.toInt) % 2 ^ 24) ∧
      (d.p = false → d.b = true → ((baseAddress d pcNext rB).toNat : Int) = (rB.toNat + v.toInt) % 2 ^ 24) ∧
      (d.p = false → d.b = false → (baseAddress d pcNext rB).toNat = v.toNat)) ∧
    (effAddr d pcNext rB rX).toNat =
      (if d.x = true then ((baseAddress d pcNext rB).toNat + rX.toNat) % 2 ^ 24 else (baseAddress d pcNext rB).toNat) ∧
    ∀ s : State, ∃ ea0 : Nat,
      (∀ v, d.field = .addr20 v → ea0 = v.toNat) ∧
      (∀ v, d.field = .disp12 v →
        (d.p = true → (ea0 : Int) = (s.regs.pc.toNat + v.toInt) % 2 ^ 24) ∧
        (d.p = false → d.b = true → (ea0 : Int) = (s.regs.b.toNat + v.toInt) % 2 ^ 24) ∧
        (d.p = false → d.b = false → ea0 = v.toNat)) ∧
      (operandEa d s).toNat = if d.x = true then (ea0 + s.regs.x.toNat) % 2 ^ 24 else ea0

/-- R86: n and i alone select the mode, which is exactly one of the three; a SIMPLE operand is memory at the address, an
IMMEDIATE one is no memory at all, an INDIRECT one is memory at the word stored at the address, one level deep; formats 1 and
2 have no mode. -/
def Obligations.AddressingModes : Prop :=
  (∀ d : MemOperand,
    addressingMode d =
      (if d.n = d.i then .simple else if d.i = true then .immediate else .indirect)) ∧
  (∀ (d : MemOperand) (s : State),
    (addressingMode d = .simple → wordOperand d s = memReadWord s (operandEa d s) ∧
      byteOperand d s = memReadByte s (operandEa d s)) ∧
    (addressingMode d = .immediate → ∀ m : Memory, wordOperand d (s.setMem m) = wordOperand d s ∧
      ∃ v, wordOperand d s = .ok v ∧ byteOperand d s = .ok (v.extractLsb' 0 8)) ∧
    (addressingMode d = .indirect → ∀ p, memReadWord s (operandEa d s) = .ok p →
      wordOperand d s = memReadWord s p ∧ byteOperand d s = memReadByte s p)) ∧
  (∀ source ia bytes rB rX sig, decoderBlock source ia bytes rB rX = .ok sig →
    (sig.mode = .absent ↔ sig.fmt = .one ∨ sig.fmt = .two))

/-- R87: the immediate value is the zero-extended field under FIELD and EA under TARGET, and the two agree when
b = p = x = 0. The machine's own source is left open (log entry 7), so the executing machine's immediate value is, for every
operand in every state, the one reading or, for every operand in every state, the other; and the field when b = p = x = 0. -/
def Obligations.ImmediateValueReadings : Prop :=
  ((∀ (d : MemOperand) (s : State), operandImmediate d s = immediateField d) ∨
    ∀ (d : MemOperand) (s : State), operandImmediate d s = operandEa d s) ∧
  (∀ d : MemOperand, (∀ v, d.field = .addr20 v → (immediateField d).toNat = v.toNat) ∧
    ∀ v, d.field = .disp12 v → (immediateField d).toNat = v.toNat) ∧
  (∀ (d : MemOperand) (s : State), d.b = false → d.p = false → d.x = false → operandImmediate d s = immediateField d) ∧
  ∀ (d : MemOperand) (pcNext rB rX : Word),
    (∀ v, d.field = .addr20 v → (immediateValue .field d (effAddr d pcNext rB rX)).toNat = v.toNat) ∧
    (∀ v, d.field = .disp12 v → (immediateValue .field d (effAddr d pcNext rB rX)).toNat = v.toNat) ∧
    immediateValue .target d (effAddr d pcNext rB rX) = effAddr d pcNext rB rX ∧
    (d.b = false → d.p = false → d.x = false →
      immediateValue .target d (effAddr d pcNext rB rX) = immediateValue .field d (effAddr d pcNext rB rX))

/-! ## Memory -/

/-- A word write (R52, R55): outside memory it faults with its start address; inside it makes the three bytes big-endian,
leaves every other byte, and is read back. -/
def Obligations.WordWriteEffect : Prop :=
  ∀ (s : State) (a v : Word),
    (0xFFFF < a.toNat + 2 → memWriteWord s a v = .error (.memoryFault a) ∧ memReadWord s a = .error (.memoryFault a)) ∧
    (a.toNat + 2 ≤ 0xFFFF → ∃ m : Memory, memWriteWord s a v = .ok { s with mem := m } ∧
      (m.read a.toNat).toNat = v.toNat / 65536 ∧
      (m.read (a.toNat + 1)).toNat = v.toNat / 256 % 256 ∧
      (m.read (a.toNat + 2)).toNat = v.toNat % 256 ∧
      (∀ other, other < a.toNat ∨ a.toNat + 2 < other → m.read other = s.mem.read other) ∧
      memReadWord { s with mem := m } a = .ok v)

/-- A byte write (R55): outside memory it faults; inside it changes the one byte it names. Reading a word reads three bytes,
most significant first (R52, R53). -/
def Obligations.ByteWriteEffect : Prop :=
  (∀ (s : State) (a : Word) (v : Byte),
    (0xFFFF < a.toNat → memWriteByte s a v = .error (.memoryFault a) ∧ memReadByte s a = .error (.memoryFault a)) ∧
    (a.toNat ≤ 0xFFFF → ∃ m : Memory, memWriteByte s a v = .ok { s with mem := m } ∧
      (∀ other, m.read other = if other = a.toNat then v else s.mem.read other) ∧
      memReadByte { s with mem := m } a = .ok v)) ∧
  (∀ (m : Memory) (a : Nat),
    (m.readWord a).toNat = 65536 * (m.read a).toNat + 256 * (m.read (a + 1)).toNat + (m.read (a + 2)).toNat)

/-- R55: an access of 1 or 3 bytes faults with its start address exactly when one of its byte addresses is not below 0x10000;
else a read answers a value and a write a state; a word access at 0xFFFE faults. A faulting access answers no state and no
value, so nothing is read or written. -/
def Obligations.AccessBoundsCheck : Prop :=
  ∀ (s : State) (a : Word) (v : Word) (c : Byte),
    ((∃ k < 1, 0x10000 ≤ a.toNat + k) → memReadByte s a = .error (.memoryFault a) ∧
      memWriteByte s a c = .error (.memoryFault a)) ∧
    ((∀ k < 1, a.toNat + k < 0x10000) → (∃ w, memReadByte s a = .ok w) ∧ ∃ t, memWriteByte s a c = .ok t) ∧
    ((∃ k < 3, 0x10000 ≤ a.toNat + k) → memReadWord s a = .error (.memoryFault a) ∧
      memWriteWord s a v = .error (.memoryFault a)) ∧
    ((∀ k < 3, a.toNat + k < 0x10000) → (∃ w, memReadWord s a = .ok w) ∧ ∃ t, memWriteWord s a v = .ok t) ∧
    memReadWord s 0xFFFE#24 = .error (.memoryFault 0xFFFE#24) ∧
    memWriteWord s 0xFFFE#24 v = .error (.memoryFault 0xFFFE#24)

/-- Memories in canonical form that read alike are equal data. The form is the model's own way of holding the byte map of
R38 and R59. -/
def Obligations.CanonicalMemoryIsExtensional : Prop :=
  ∀ m m' : Memory, m.wf = true → m'.wf = true → (∀ a, m.read a = m'.read a) → m = m'

/-! ## Results: every implemented instruction, where it completes -/

/-- LDA and LDT, formats 3 and 4 (R120, R121): the register becomes the word at the operand address, or the immediate value;
nothing else changes. -/
def Obligations.WordLoadResult : Prop :=
  ∀ (d : MemOperand) (s : State),
    (∀ a, operandAt d s a = true → a.toNat + 2 ≤ 0xFFFF →
      exec (.lda d) s = .next { s with regs := { s.regs with a := s.mem.readWord a.toNat } } ∧
      exec (.ldaE d) s = .next { s with regs := { s.regs with a := s.mem.readWord a.toNat } } ∧
      exec (.ldt d) s = .next { s with regs := { s.regs with t := s.mem.readWord a.toNat } } ∧
      exec (.ldtE d) s = .next { s with regs := { s.regs with t := s.mem.readWord a.toNat } }) ∧
    (addressingMode d = .immediate →
      exec (.lda d) s = .next { s with regs := { s.regs with a := operandImmediate d s } } ∧
      exec (.ldaE d) s = .next { s with regs := { s.regs with a := operandImmediate d s } } ∧
      exec (.ldt d) s = .next { s with regs := { s.regs with t := operandImmediate d s } } ∧
      exec (.ldtE d) s = .next { s with regs := { s.regs with t := operandImmediate d s } })

/-- LDCH, formats 3 and 4 (R122): A[7:0] becomes the byte at the operand address, or the low byte of the immediate value;
A[23:8] is kept and nothing else changes. -/
def Obligations.ByteLoadResult : Prop :=
  ∀ (d : MemOperand) (s : State),
    (∀ a, operandAt d s a = true → a.toNat ≤ 0xFFFF → ∃ v : Word,
      v.toNat = s.regs.a.toNat / 256 * 256 + (s.mem.read a.toNat).toNat ∧
      exec (.ldch d) s = .next { s with regs := { s.regs with a := v } } ∧
      exec (.ldchE d) s = .next { s with regs := { s.regs with a := v } }) ∧
    (addressingMode d = .immediate → ∃ v : Word,
      v.toNat = s.regs.a.toNat / 256 * 256 + (operandImmediate d s).toNat % 256 ∧
      exec (.ldch d) s = .next { s with regs := { s.regs with a := v } } ∧
      exec (.ldchE d) s = .next { s with regs := { s.regs with a := v } })

/-- STA, STL and STX, formats 3 and 4 (R123 to R125): the register goes to the three bytes at the operand address,
big-endian; every other byte of memory and everything else is unchanged. -/
def Obligations.WordStoreResult : Prop :=
  ∀ (d : MemOperand) (s : State) (a : Word), operandAt d s a = true → a.toNat + 2 ≤ 0xFFFF →
    let stored (v : Word) (m : Memory) : Prop :=
      (m.read a.toNat).toNat = v.toNat / 65536 ∧ (m.read (a.toNat + 1)).toNat = v.toNat / 256 % 256 ∧
      (m.read (a.toNat + 2)).toNat = v.toNat % 256 ∧
      ∀ other, other < a.toNat ∨ a.toNat + 2 < other → m.read other = s.mem.read other
    (∃ m, stored s.regs.a m ∧ exec (.sta d) s = .next { s with mem := m } ∧ exec (.staE d) s = .next { s with mem := m }) ∧
    (∃ m, stored s.regs.l m ∧ exec (.stl d) s = .next { s with mem := m } ∧ exec (.stlE d) s = .next { s with mem := m }) ∧
    (∃ m, stored s.regs.x m ∧ exec (.stx d) s = .next { s with mem := m } ∧ exec (.stxE d) s = .next { s with mem := m })

/-- STCH, formats 3 and 4 (R126): A[7:0] goes to the byte at the operand address; every other byte of memory and everything
else is unchanged. -/
def Obligations.ByteStoreResult : Prop :=
  ∀ (d : MemOperand) (s : State) (a : Word), operandAt d s a = true → a.toNat ≤ 0xFFFF →
    ∃ m : Memory, (m.read a.toNat).toNat = s.regs.a.toNat % 256 ∧
      (∀ other, other ≠ a.toNat → m.read other = s.mem.read other) ∧
      exec (.stch d) s = .next { s with mem := m } ∧ exec (.stchE d) s = .next { s with mem := m }

/-- COMP, formats 3 and 4 (R140): SW becomes the signed comparison of A with the word at the operand address, or with the
immediate value; nothing else changes. -/
def Obligations.CompareResult : Prop :=
  ∀ (d : MemOperand) (s : State),
    (∀ a, operandAt d s a = true → a.toNat + 2 ≤ 0xFFFF →
      exec (.comp d) s =
        .next { s with regs := { s.regs with sw := comparisonCode s.regs.a (s.mem.readWord a.toNat) } } ∧
      exec (.compE d) s =
        .next { s with regs := { s.regs with sw := comparisonCode s.regs.a (s.mem.readWord a.toNat) } }) ∧
    (addressingMode d = .immediate →
      exec (.comp d) s = .next { s with regs := { s.regs with sw := comparisonCode s.regs.a (operandImmediate d s) } } ∧
      exec (.compE d) s = .next { s with regs := { s.regs with sw := comparisonCode s.regs.a (operandImmediate d s) } })

/-- J and JSUB, formats 3 and 4 (R141, R144): PC becomes the operand address, which may be any 24-bit value; JSUB puts PCnext
in L first; nothing else changes. -/
def Obligations.JumpResult : Prop :=
  ∀ (d : MemOperand) (s : State) (a : Word), operandAt d s a = true →
    exec (.j d) s = .next { s with regs := { s.regs with pc := a } } ∧
    exec (.jE d) s = .next { s with regs := { s.regs with pc := a } } ∧
    exec (.jsub d) s = .next { s with regs := { s.regs with pc := a, l := s.regs.pc } } ∧
    exec (.jsubE d) s = .next { s with regs := { s.regs with pc := a, l := s.regs.pc } }

/-- JEQ and JLT, formats 3 and 4 (R142, R143): PC becomes the operand address if SW is 0, or has bit 23 set; else nothing
changes. -/
def Obligations.ConditionalJumpResult : Prop :=
  ∀ (d : MemOperand) (s : State) (a : Word), operandAt d s a = true →
    (s.regs.sw.toNat = 0 → exec (.jeq d) s = .next { s with regs := { s.regs with pc := a } } ∧
      exec (.jeqE d) s = .next { s with regs := { s.regs with pc := a } }) ∧
    (s.regs.sw.toNat ≠ 0 → exec (.jeq d) s = .next s ∧ exec (.jeqE d) s = .next s) ∧
    (0x800000 ≤ s.regs.sw.toNat → exec (.jlt d) s = .next { s with regs := { s.regs with pc := a } } ∧
      exec (.jltE d) s = .next { s with regs := { s.regs with pc := a } }) ∧
    (s.regs.sw.toNat < 0x800000 → exec (.jlt d) s = .next s ∧ exec (.jltE d) s = .next s)

/-- R89 and R145: RSUB puts L in PC, whatever its flags and its field hold and whatever memory holds, and changes nothing
else; its opcode is 0x4C, and with byte_1[4] = 1 it is four bytes long, else three. The step that executes it halts the
machine normally, with halted = true in its result, exactly when L is the sentinel; it uses no effective address; when L names
no boundary, the step after it ends with NoInstructionAtAddress. -/
def Obligations.ReturnFromSubroutineResult : Prop :=
  (∀ (d : MemOperand) (s : State),
    exec (.rsub d) s = .next { s with regs := { s.regs with pc := s.regs.l } } ∧
    exec (.rsubE d) s = .next { s with regs := { s.regs with pc := s.regs.l } } ∧
    (Instr.rsub d).opcode = 0x4C#8 ∧ (Instr.rsubE d).opcode = 0x4C#8) ∧
  (∀ b0 b1 : Byte, b0 &&& 0xFC#8 = 0x4C#8 → formatOf b0 b1 = if b1.getLsbD 4 then .four else .three) ∧
  (∀ (d : MemOperand) (s : State), s.status.enabled = true → fetch s = .run (.rsub d) ∨ fetch s = .run (.rsubE d) →
    ∃ t, step s = .next t ∧ t.regs = { s.regs with pc := s.regs.l } ∧ t.mem = s.mem ∧ t.dev = s.dev ∧
      t.status = (if s.regs.l = 0xFFFFFF#24 then .haltedOk else .running) ∧
      (stepResult s t).halted = (s.regs.l == 0xFFFFFF#24) ∧ (stepResult s t).effectiveAddressUsed = none ∧
      (s.regs.l ≠ 0xFFFFFF#24 → boundaryAt s.bounds s.regs.l = none →
        step t = .next { t with status := .haltedErr (.noInstructionAtAddress s.regs.l) }))

/-- CLEAR (R110): the register that r1 names becomes zero, F its all-zero pattern, PC included; r2 does not matter and
nothing else changes. -/
def Obligations.ClearResult : Prop :=
  ∀ (r2 : RegField) (s : State),
    exec (.clear 0#4 r2) s = .next { s with regs := { s.regs with a := 0#24 } } ∧
    exec (.clear 1#4 r2) s = .next { s with regs := { s.regs with x := 0#24 } } ∧
    exec (.clear 2#4 r2) s = .next { s with regs := { s.regs with l := 0#24 } } ∧
    exec (.clear 3#4 r2) s = .next { s with regs := { s.regs with b := 0#24 } } ∧
    exec (.clear 4#4 r2) s = .next { s with regs := { s.regs with s := 0#24 } } ∧
    exec (.clear 5#4 r2) s = .next { s with regs := { s.regs with t := 0#24 } } ∧
    exec (.clear 6#4 r2) s = .next { s with regs := { s.regs with f := 0#48 } } ∧
    exec (.clear 8#4 r2) s = .next { s with regs := { s.regs with pc := 0#24 } } ∧
    exec (.clear 9#4 r2) s = .next { s with regs := { s.regs with sw := 0#24 } }

/-- COMPR (R111): SW becomes the signed comparison of the two registers, PC reading as PCnext; nothing else changes. -/
def Obligations.CompareRegistersResult : Prop :=
  ∀ (r1 r2 : RegField) (s : State) (v1 v2 : Word),
    registerValue s.regs r1 = some v1 → registerValue s.regs r2 = some v2 →
    exec (.compr r1 r2) s = .next { s with regs := { s.regs with sw := comparisonCode v1 v2 } }

/-- TIXR (R112): X is incremented modulo 2^24, then SW becomes the signed comparison of the new X with the register, read
after the increment (so TIXR X gives equal); r2 does not matter and nothing else changes. -/
def Obligations.IncrementIndexResult : Prop :=
  ∀ (r1 r2 : RegField) (s : State) (v : Word), registerValue s.regs r1 = some v →
    ∃ x' : Word, x'.toNat = (s.regs.x.toNat + 1) % 2 ^ 24 ∧
      exec (.tixr r1 r2) s =
        .next { s with regs := { s.regs with x := x', sw := comparisonCode x' (if r1 = 1#4 then x' else v) } }

/-- TD in formats 3 and 4 (R31, R160): TD writes SW with 1 or 0, 0 where the device is not available; where it is, the answer is
a free draw (R168). Nothing the spec names changes beside SW. The form of the draw is the model's choice (log entry 8): it is the
open oracle at the device and at the device's count of draws, the model's own field `polls`, which goes up by one where the
device is available, so that the next TD draws another answer, and stays where it is not. -/
def Obligations.TestDeviceResult : Prop :=
  ∀ (d : MemOperand) (s : State) (a : Word) (id : Byte), deviceAt d s a id = true →
    ∃ (ready : Bool) (t : State), exec (.td d) s = .next t ∧ exec (.tdE d) s = .next t ∧
      ready = ((s.device id).avail && Config.tdReady id (s.device id).polls) ∧
      t.regs = { s.regs with sw := if ready = true then 0x000001#24 else 0x000000#24 } ∧
      t.mem = s.mem ∧ t.bounds = s.bounds ∧ t.status = s.status ∧ t.steps = s.steps ∧
      (∀ other, other ≠ id → t.device other = s.device other) ∧
      t.device id = { s.device id with
        polls := if (s.device id).avail = true then (s.device id).polls + 1 else (s.device id).polls }

/-- RD in formats 3 and 4 (R161), on an available device that WD has not written: A becomes the byte at the read cursor, zero
extended, and the cursor moves on by one; at the end of the stream A becomes 0 and the cursor stays. The device is then used
for reading; nothing else changes. -/
def Obligations.ReadDeviceResult : Prop :=
  ∀ (d : MemOperand) (s : State) (a : Word) (id : Byte), deviceAt d s a id = true →
    (s.device id).avail = true → (s.device id).used ≠ .write →
    ∃ t : State, exec (.rd d) s = .next t ∧ exec (.rdE d) s = .next t ∧
      t.mem = s.mem ∧ t.bounds = s.bounds ∧ t.status = s.status ∧ t.steps = s.steps ∧
      (∀ other, other ≠ id → t.device other = s.device other) ∧
      (∀ v, (s.device id).input[(s.device id).rpos]? = some v →
        (∃ w : Word, w.toNat = v.toNat ∧ t.regs = { s.regs with a := w }) ∧
        t.device id = { s.device id with rpos := (s.device id).rpos + 1, used := .read }) ∧
      ((s.device id).input.length ≤ (s.device id).rpos →
        t.regs = { s.regs with a := 0x000000#24 } ∧ t.device id = { s.device id with used := .read })

/-- WD in formats 3 and 4 (R162), on an available device that RD has not read: A[7:0] is appended to the device's output, and
the device is then used for writing; A and everything else is unchanged. -/
def Obligations.WriteDeviceResult : Prop :=
  ∀ (d : MemOperand) (s : State) (a : Word) (id : Byte), deviceAt d s a id = true →
    (s.device id).avail = true → (s.device id).used ≠ .read →
    ∃ (t : State) (v : Byte), exec (.wd d) s = .next t ∧ exec (.wdE d) s = .next t ∧
      v.toNat = s.regs.a.toNat % 256 ∧
      t.regs = s.regs ∧ t.mem = s.mem ∧ t.bounds = s.bounds ∧ t.status = s.status ∧ t.steps = s.steps ∧
      (∀ other, other ≠ id → t.device other = s.device other) ∧
      t.device id = { s.device id with out := (s.device id).out ++ [v], used := .write }

/-! ## Faults -/

/-- Every instruction without semantics takes UnknownMnemonic with its address and opcode, and changes nothing but the status
(R180, R233): the 40 mnemonics LDX, LDL, ADD, SUB, MUL, DIV, TIX, JGT, AND, OR, ADDF, SUBF, MULF, DIVF, LDB, LDS, LDF, STB, STS, STF, STT,
COMPF, LPS, STI, STSW and SSK (formats 3 and 4), ADDR, SUBR, MULR, DIVR, SHIFTL, SHIFTR, RMO and SVC (format 2), FLOAT, FIX, NORM,
SIO, HIO and TIO (format 1), and the opcode values 8C, BC, CC, E4 and FC (formats 3 and 4). Taking this fault is the whole
effect the spec gives them. That taking a fault is a next state is the model's reading (log entry 11). -/
def Obligations.UnknownMnemonicResult : Prop :=
  ∀ (i : Instr) (s : State), i.wellFormed = true → (∀ m ∈ implemented, i.mnemonic ≠ some m) →
    exec i s = .next { s with status := .haltedErr (.unknownMnemonic (s.regs.pc - BitVec.ofNat 24 i.length) i.opcode) }

/-- Mode IMMEDIATE on a store, a jump or a device instruction takes IllegalAddressingMode with the instruction's address and
mnemonic, before any other check, and changes nothing but the status (R88, R237, R243). -/
def Obligations.ImmediateWhereAddressIsNeeded : Prop :=
  ∀ (d : MemOperand) (s : State), addressingMode d = .immediate →
    let taken (m : Mnemonic) : Host.Outcome State Fault Refusal :=
      .next { s with status := .haltedErr (.illegalAddressingMode (s.regs.pc - BitVec.ofNat 24 d.length) m) }
    exec (.sta d) s = taken .sta ∧ exec (.staE d) s = taken .sta ∧ exec (.stl d) s = taken .stl ∧
    exec (.stlE d) s = taken .stl ∧ exec (.stx d) s = taken .stx ∧ exec (.stxE d) s = taken .stx ∧
    exec (.stch d) s = taken .stch ∧ exec (.stchE d) s = taken .stch ∧ exec (.j d) s = taken .j ∧
    exec (.jE d) s = taken .j ∧ exec (.jeq d) s = taken .jeq ∧ exec (.jeqE d) s = taken .jeq ∧
    exec (.jlt d) s = taken .jlt ∧ exec (.jltE d) s = taken .jlt ∧ exec (.jsub d) s = taken .jsub ∧
    exec (.jsubE d) s = taken .jsub ∧ exec (.td d) s = taken .td ∧ exec (.tdE d) s = taken .td ∧
    exec (.rd d) s = taken .rd ∧ exec (.rdE d) s = taken .rd ∧ exec (.wd d) s = taken .wd ∧ exec (.wdE d) s = taken .wd

/-- A register field that names no register takes IllegalRegister in CLEAR, COMPR and TIXR, and so does F in COMPR and TIXR; of
two such fields in COMPR the first is reported; nothing but the status changes (R90, R238, R243). -/
def Obligations.IllegalRegisterFault : Prop :=
  ∀ (r1 r2 : RegField) (s : State),
    let taken (k : RegField) : Host.Outcome State Fault Refusal :=
      .next { s with status := .haltedErr (.illegalRegister (s.regs.pc - 2#24) k) }
    (r1.toNat = 7 ∨ 10 ≤ r1.toNat → exec (.clear r1 r2) s = taken r1) ∧
    (r1.toNat = 6 ∨ r1.toNat = 7 ∨ 10 ≤ r1.toNat → exec (.compr r1 r2) s = taken r1 ∧ exec (.tixr r1 r2) s = taken r1) ∧
    (∀ v1, registerValue s.regs r1 = some v1 → r2.toNat = 6 ∨ r2.toNat = 7 ∨ 10 ≤ r2.toNat →
      exec (.compr r1 r2) s = taken r2)

/-- An INDIRECT operand whose pointer word touches an address at or above 0x10000 takes MemoryFault with EA in every
instruction with semantics that has an operand, taken jump or not, before any device check (R88, R142, R232, R243). -/
def Obligations.PointerFault : Prop :=
  ∀ (d : MemOperand) (s : State), addressingMode d = .indirect → 0xFFFF < (operandEa d s).toNat + 2 →
    let taken : Host.Outcome State Fault Refusal :=
      .next { s with status := .haltedErr (.memoryFault (operandEa d s)) }
    (exec (.lda d) s = taken ∧ exec (.ldaE d) s = taken ∧ exec (.ldt d) s = taken ∧ exec (.ldtE d) s = taken ∧
      exec (.ldch d) s = taken ∧ exec (.ldchE d) s = taken ∧ exec (.comp d) s = taken ∧ exec (.compE d) s = taken) ∧
    (exec (.sta d) s = taken ∧ exec (.staE d) s = taken ∧ exec (.stl d) s = taken ∧ exec (.stlE d) s = taken ∧
      exec (.stx d) s = taken ∧ exec (.stxE d) s = taken ∧ exec (.stch d) s = taken ∧ exec (.stchE d) s = taken) ∧
    (exec (.j d) s = taken ∧ exec (.jE d) s = taken ∧ exec (.jeq d) s = taken ∧ exec (.jeqE d) s = taken ∧
      exec (.jlt d) s = taken ∧ exec (.jltE d) s = taken ∧ exec (.jsub d) s = taken ∧ exec (.jsubE d) s = taken) ∧
    (exec (.td d) s = taken ∧ exec (.tdE d) s = taken ∧ exec (.rd d) s = taken ∧ exec (.rdE d) s = taken ∧
      exec (.wd d) s = taken ∧ exec (.wdE d) s = taken)

/-- An operand access that touches an address at or above 0x10000 takes MemoryFault with the operand address: a word access in
LDA, LDT, COMP, STA, STL and STX, a byte access in LDCH, STCH, TD, RD and WD (R55, R56, R232). -/
def Obligations.OperandFault : Prop :=
  ∀ (d : MemOperand) (s : State) (a : Word), operandAt d s a = true →
    let taken : Host.Outcome State Fault Refusal := .next { s with status := .haltedErr (.memoryFault a) }
    (0xFFFF < a.toNat + 2 →
      exec (.lda d) s = taken ∧ exec (.ldaE d) s = taken ∧ exec (.ldt d) s = taken ∧ exec (.ldtE d) s = taken ∧
      exec (.comp d) s = taken ∧ exec (.compE d) s = taken ∧ exec (.sta d) s = taken ∧ exec (.staE d) s = taken ∧
      exec (.stl d) s = taken ∧ exec (.stlE d) s = taken ∧ exec (.stx d) s = taken ∧ exec (.stxE d) s = taken) ∧
    (0xFFFF < a.toNat →
      exec (.ldch d) s = taken ∧ exec (.ldchE d) s = taken ∧ exec (.stch d) s = taken ∧ exec (.stchE d) s = taken ∧
      exec (.td d) s = taken ∧ exec (.tdE d) s = taken ∧ exec (.rd d) s = taken ∧ exec (.rdE d) s = taken ∧
      exec (.wd d) s = taken ∧ exec (.wdE d) s = taken)

/-- RD and WD on an unavailable device take DeviceUnavailable; on an available one used in the other direction they take
DeviceDirectionConflict; nothing but the status changes (R161, R162, R167, R235, R240). -/
def Obligations.DeviceFaults : Prop :=
  ∀ (d : MemOperand) (s : State) (a : Word) (id : Byte), deviceAt d s a id = true →
    ((s.device id).avail = false →
      exec (.rd d) s = .next { s with status := .haltedErr (.deviceUnavailable id) } ∧
      exec (.rdE d) s = .next { s with status := .haltedErr (.deviceUnavailable id) } ∧
      exec (.wd d) s = .next { s with status := .haltedErr (.deviceUnavailable id) } ∧
      exec (.wdE d) s = .next { s with status := .haltedErr (.deviceUnavailable id) }) ∧
    ((s.device id).avail = true → (s.device id).used = .write →
      exec (.rd d) s = .next { s with status := .haltedErr (.deviceDirectionConflict id) } ∧
      exec (.rdE d) s = .next { s with status := .haltedErr (.deviceDirectionConflict id) }) ∧
    ((s.device id).avail = true → (s.device id).used = .read →
      exec (.wd d) s = .next { s with status := .haltedErr (.deviceDirectionConflict id) } ∧
      exec (.wdE d) s = .next { s with status := .haltedErr (.deviceDirectionConflict id) })

/-- Whatever instruction is executed in a state with a step enabled: it answers a next state, and if that state is Halted, it
is the state it was executed in with the fault in the status and nothing else changed (R57, R244, R281). -/
def Obligations.FaultingInstructionWritesNothing : Prop :=
  ∀ (i : Instr) (s : State), s.status.enabled = true →
    ∃ t, exec i s = .next t ∧ (t.status = s.status ∨ ∃ e, t = { s with status := .haltedErr e })

/-! ## What instructions may change -/

/-- Only the instructions that R24 to R30, R34 and R37 name write a register: whatever instruction is executed, a register that
differs afterwards is one it is named for. -/
def Obligations.RegisterWriters : Prop :=
  ∀ (i : Instr) (s t : State), exec i s = .next t →
    (t.regs.a ≠ s.regs.a → i.mnemonic ∈ [some .lda, some .ldch, some .rd] ∨ ∃ r2, i = .clear 0#4 r2) ∧
    (t.regs.x ≠ s.regs.x → i.mnemonic = some .tixr ∨ ∃ r2, i = .clear 1#4 r2) ∧
    (t.regs.l ≠ s.regs.l → i.mnemonic = some .jsub ∨ ∃ r2, i = .clear 2#4 r2) ∧
    (t.regs.b ≠ s.regs.b → t.regs.b = 0#24 ∧ ∃ r2, i = .clear 3#4 r2) ∧
    (t.regs.s ≠ s.regs.s → t.regs.s = 0#24 ∧ ∃ r2, i = .clear 4#4 r2) ∧
    (t.regs.t ≠ s.regs.t → i.mnemonic = some .ldt ∨ ∃ r2, i = .clear 5#4 r2) ∧
    (t.regs.f ≠ s.regs.f → t.regs.f = 0#48 ∧ ∃ r2, i = .clear 6#4 r2) ∧
    (t.regs.pc ≠ s.regs.pc →
      i.mnemonic ∈ [some .j, some .jeq, some .jlt, some .jsub, some .rsub] ∨ ∃ r2, i = .clear 8#4 r2) ∧
    (t.regs.sw ≠ s.regs.sw →
      i.mnemonic ∈ [some .comp, some .compr, some .tixr, some .td] ∨ ∃ r2, i = .clear 9#4 r2)

/-- Only STA, STL, STX and STCH change memory, only TD, RD and WD the devices, and no instruction the boundary list or the step
count; a device other than the one the operand names is left alone (R20, R40, R50, R58). -/
def Obligations.MemoryAndDeviceWriters : Prop :=
  ∀ (i : Instr) (s t : State), exec i s = .next t →
    (i.mnemonic ∉ [some .sta, some .stl, some .stx, some .stch] → t.mem = s.mem) ∧
    (i.mnemonic ∉ [some .td, some .rd, some .wd] → t.dev = s.dev) ∧
    (∀ d a id, i.operands = .mem d → deviceAt d s a id = true →
      ∀ other, other ≠ id → t.device other = s.device other) ∧
    t.bounds = s.bounds ∧ t.steps = s.steps

/-- No instruction reads F (R37): executed in two states that differ in F alone, an instruction gives two states that differ in
F alone, which keep their patterns unless the instruction is CLEAR F, which makes both zero. That TD on an available device gives
both the same SW is the model's choice (log entry 8): both states hold the same count of draws, so both draw the same answer,
where R168 lets each TD draw independently. -/
def Obligations.FloatIsNeverRead : Prop :=
  ∀ (i : Instr) (s : State) (f : FloatPattern), ∃ t, exec i s = .next t ∧
    exec i (withFloat s f) =
      .next (withFloat t (match i with | .clear r1 _ => if r1 = 6#4 then 0#48 else f | _ => f))

/-- SW holds less, equal or greater after every step that finds it so (R30, R31). -/
def Obligations.StatusWordStaysACode : Prop :=
  ∀ s t : State, swOk s.regs.sw → step s = .next t → swOk t.regs.sw

/-! ## The step -/

/-- A step runs the decoded instruction (R276): where a step is enabled, the record of the boundary at PC still matches memory
and its bytes decode to `i`, the step is `exec i` on the state with PC advanced by the length and the status Running; then
the step is counted, and a machine that did not fault and whose PC is the sentinel is Halted(ok). -/
def Obligations.StepRunsTheDecodedInstruction : Prop :=
  ∀ (s : State) (r : DecodedInstruction) (i : Instr) (rest : List Byte), s.status.enabled = true →
    boundaryAt s.bounds s.regs.pc = some r → s.mem.readBytes s.regs.pc.toNat r.length = r.rawBytes →
    decode r.rawBytes = .ok (i, rest) →
    step s =
      (match exec i { s with regs := { s.regs with pc := s.regs.pc + BitVec.ofNat 24 i.length }, status := .running } with
      | .next t =>
        .next { t with
          steps := t.steps + 1
          status := if t.status = .running ∧ t.regs.pc = 0xFFFFFF#24 then .haltedOk else t.status }
      | .fault e => .fault e
      | .refused e => .refused e)

/-- R35: absent a control transfer, PC after a step that executed an instruction is its address plus 1, 2, 3 or 4, by its
format. -/
def Obligations.ProgramCounterAdvancesByFormat : Prop :=
  ∀ (s t : State) (i : Instr), fetch s = .run i → step s = .next t → transfersControl i s = false →
    t.regs.pc = s.regs.pc + (match i.format with | .one => 1#24 | .two => 2#24 | .three => 3#24 | .four => 4#24)

/-- A step at a PC where no boundary starts takes NoInstructionAtAddress, and one at a boundary whose memory bytes differ from
the recorded ones takes SelfModifiedInstruction; PC, the step count and everything but the status stay (R65, R234, R239, R277). -/
def Obligations.FaultsBeforeDispatch : Prop :=
  ∀ s : State, s.status.enabled = true →
    ((∀ r ∈ s.bounds, r.address ≠ s.regs.pc) →
      step s = .next { s with status := .haltedErr (.noInstructionAtAddress s.regs.pc) }) ∧
    (∀ r k, boundaryAt s.bounds s.regs.pc = some r → k < r.length →
      r.rawBytes[k]? ≠ some (s.mem.read (s.regs.pc.toNat + k)) →
      step s = .next { s with status := .haltedErr (.selfModifiedInstruction s.regs.pc) })

/-- Halted is terminal (R245): a step from a halted state gives no next state. That the model answers it with a fault of its
own name is the model's choice (log entry 12). -/
def Obligations.HaltedIsTerminal : Prop :=
  ∀ s : State, Succeeded s ∨ Faulted s → step s = .fault .halted ∧ ∀ t, ¬ Steps s t

/-- A step ends in Halted(ok) exactly when it did not fault and PC is the sentinel, in Halted(err e) exactly when a fault was
taken, and in Running otherwise (R274, R275). -/
def Obligations.HaltedOkExactlyAtTheSentinel : Prop :=
  ∀ s t : State, step s = .next t →
    (t.status = .haltedOk ↔ (¬ Faulted t ∧ t.regs.pc = 0xFFFFFF#24)) ∧
    (t.status ≠ .haltedOk → ¬ Faulted t → t.status = .running)

/-- The step count rises by one exactly when the step executed an instruction, faulting or not (R42, R276). -/
def Obligations.StepsAreCounted : Prop :=
  ∀ s t : State, step s = .next t → ((∃ i, fetch s = .run i) → t.steps = s.steps + 1) ∧
    ((∀ i, fetch s ≠ .run i) → t.steps = s.steps)

/-- R165: in every step a device's input stays and its read cursor stays or moves on by one, the latter exactly when the step's
RD returned the byte at the cursor; its output stays or gains one byte at the end. -/
def Obligations.DeviceCursorsOnlyAdvance : Prop :=
  ∀ (s t : State) (id : Byte), step s = .next t →
    (t.device id).avail = (s.device id).avail ∧ (t.device id).input = (s.device id).input ∧
    ((t.device id).rpos = (s.device id).rpos ∨
      ((t.device id).rpos = (s.device id).rpos + 1 ∧
        (∃ i v, fetch s = .run i ∧ i.mnemonic = some .rd ∧ (s.device id).input[(s.device id).rpos]? = some v ∧
          t.regs.a.toNat = v.toNat))) ∧
    (∀ i d a v, fetch s = .run i → i.mnemonic = some .rd → i.operands = .mem d →
      deviceAt d (dispatched s i) a id = true → ¬ Faulted t →
      (s.device id).input[(s.device id).rpos]? = some v → (t.device id).rpos = (s.device id).rpos + 1) ∧
    ((t.device id).out = (s.device id).out ∨ ∃ v, (t.device id).out = (s.device id).out ++ [v])

/-! ## Invariants and runs -/

/-- Every step keeps the invariant (R38, R39, R59, R161, R162, R167, R273, R275), from any state that has it. -/
def Obligations.StepKeepsInvariant : Prop :=
  ∀ s t : State, Inv s → step s = .next t → Inv t

/-- The reset state has the invariant. -/
def Obligations.ResetHasInvariant : Prop := Inv State.reset

/-- The state every launch leaves has the invariant, whatever the loader and the host supply (R43, R270, R272, R273, R275). -/
def Obligations.LaunchHasInvariant : Prop := ∀ p : Launch, Inv (State.launch p)

/-- A state that has the invariant and is not halted has a next state: no instruction is refused, no form stops the model
(R61, R91, R276). -/
def Obligations.EnabledStateSteps : Prop :=
  ∀ s : State, Inv s → s.status.enabled = true → ∃ t, Steps s t

/-- R40: the boundary list is a finite map from address to record (no address has two), and holds the records that the scan at
launch produced in every state a run from a launch passes through: execution only reads it. -/
def Obligations.BoundaryListIsFixed : Prop :=
  ∀ (p : Launch) (t : State), Reaches (State.launch p) t →
    t.bounds = boundaryScan p.memory p.extent ∧ (t.bounds.map fun r => r.address).Nodup

/-- What the boundary scan records is sound (R272, R273): entries do not overlap, every entry's bytes lie in memory, none starts at a fill byte,
and each is the record of the bytes memory holds at its address. -/
def Obligations.BoundaryScanIsSound : Prop :=
  ∀ (m : Memory) (extent : Nat),
    boundsOk (boundaryScan m extent) ∧
    ∀ r ∈ boundaryScan m extent, r.address.toNat < extent ∧ m.readBytes r.address.toNat r.length = r.rawBytes

/-- Along every run, from any state, the output of a device only grows, its read cursor never moves back, and what the host
supplied stays (R165, R166, R169). -/
def Obligations.DeviceHistoryGrows : Prop :=
  ∀ (s t : State) (id : Byte), Reaches s t →
    (s.device id).out <+: (t.device id).out ∧ (s.device id).rpos ≤ (t.device id).rpos ∧
    (t.device id).avail = (s.device id).avail ∧ (t.device id).input = (s.device id).input

/-- runToHalt ends, and how (R236, R279): from a state with the invariant whose step count has not passed the limit, with fuel
for the steps the limit leaves and one round more, it ends in a halted state after at most as many counted steps as the limit
leaves. Either its steps, one result for each, reached that state, or they reached a state that was not halted with `steps` at
the limit, and it ends there with StepLimitExceeded(steps). Wherever its steps reach such a state, it ends so. How much fuel
a call is given is the caller's, and the limit may be 0 (log entry 9). -/
def Obligations.RunToHaltTerminates : Prop :=
  ∀ (limit fuel : Nat) (s : State), Inv s → s.steps ≤ limit → limit - s.steps < fuel →
    (∃ results u, runToHalt limit fuel s = .ended results u ∧ u.status.halted = true ∧ u.steps ≤ limit ∧
      results.length ≤ limit - s.steps ∧
      (Trace s results u ∨ ∃ w, Trace s results w ∧ w.status.enabled = true ∧ w.steps = limit ∧
        u = { w with status := .haltedErr (.stepLimitExceeded limit) })) ∧
    (∀ results w, Trace s results w → w.status.enabled = true → w.steps = limit →
      runToHalt limit fuel s = .ended results { w with status := .haltedErr (.stepLimitExceeded limit) })

/-- What reset leaves, as far as the spec gives it (R43): L is the sentinel, every byte of memory reads 0xFF, no device has
been read, written or used, nothing has been executed, and the status is Loaded. -/
def Obligations.ResetValues : Prop :=
  State.reset.regs.l = 0xFFFFFF#24 ∧ (∀ a, State.reset.mem.read a = 0xFF#8) ∧
  (∀ id, (State.reset.device id).rpos = 0 ∧ (State.reset.device id).out = [] ∧ (State.reset.device id).used = .unused) ∧
  State.reset.steps = 0 ∧ State.reset.status = .loaded

/-- What a launch leaves (R43, R270): L is the sentinel, PC is PC0, the other registers are as given; a byte the load wrote
holds what it wrote last and every other byte of memory is 0xFF; a device the host maps has its input, no cursor moved and no
direction chosen, and every other device is unavailable; Halted(ok) at once if PC0 is the sentinel. -/
def Obligations.LaunchValues : Prop :=
  ∀ p : Launch,
    (State.launch p).regs = { p.initRegs with l := 0xFFFFFF#24, pc := p.pc0 } ∧
    (∀ a, (∀ c ∈ p.image, c.1 ≠ a) → (State.launch p).mem.read a = 0xFF#8) ∧
    (∀ earlier later a v, p.image = earlier ++ (a, v) :: later → a ≤ 0xFFFF → (∀ c ∈ later, c.1 ≠ a) →
      (State.launch p).mem.read a = v) ∧
    (∀ id, (∀ c ∈ p.devices, c.1 ≠ id) → ((State.launch p).device id).avail = false) ∧
    (∀ earlier later id input, p.devices = earlier ++ (id, input) :: later → (∀ c ∈ later, c.1 ≠ id) →
      ((State.launch p).device id).avail = true ∧ ((State.launch p).device id).input = input) ∧
    (∀ id, ((State.launch p).device id).rpos = 0 ∧ ((State.launch p).device id).out = [] ∧
      ((State.launch p).device id).used = .unused) ∧
    (State.launch p).steps = 0 ∧
    (State.launch p).status = (if p.pc0 = 0xFFFFFF#24 then .haltedOk else .loaded)

/-! ## The decoder's outputs, the boundary scan's reach, and what the host sees -/

/-- The decoder's outputs (R70, R92), for every byte sequence long enough: opcode, mnemonic, format and PCnext = ia + length;
formats 1 and 2 with flags 0 and no mode, field, ea or imm, format 2 with r1 and r2 from the nibbles of byte_1; formats 3 and 4
with the flags of byte_0 and byte_1, their address field, and ea and imm from it, PCnext, B and X. For an instruction that
executes they are the operand address and the immediate value it uses. That RSUB has an ea and an imm too is the model's choice
(log entry 27). -/
def Obligations.DecoderBlockOutputs : Prop :=
  (∀ (source : ImmediateValueSource) (ia rB rX : Word) (b0 : Byte) (tail : List Byte),
    (formatOf b0 (tail.headD 0#8)).length ≤ tail.length + 1 →
    ∃ sig, decoderBlock source ia (b0 :: tail) rB rX = .ok sig ∧ sig.opcode = b0 &&& 0xFC#8 ∧
      sig.mnem = Mnemonic.ofOpcode (b0 &&& 0xFC#8) ∧ sig.fmt = formatOf b0 (tail.headD 0#8) ∧
      sig.pcnext = ia + BitVec.ofNat 24 sig.fmt.length) ∧
  (∀ (source : ImmediateValueSource) (ia rB rX : Word) (b0 : Byte) (tail : List Byte) (sig : DecoderSignals),
    decoderBlock source ia (b0 :: tail) rB rX = .ok sig →
    (sig.fmt = .one ∨ sig.fmt = .two → sig.flags = ⟨false, false, false, false, false, false⟩ ∧ sig.mode = .absent ∧
      sig.disp12 = none ∧ sig.addr20 = none ∧ sig.ea = none ∧ sig.imm = none) ∧
    (sig.fmt = .one → sig.r1 = none ∧ sig.r2 = none) ∧
    (sig.fmt = .two → ∀ b1 rest, tail = b1 :: rest → ∃ r1 r2 : RegField, sig.r1 = some r1 ∧ sig.r2 = some r2 ∧
      r1.toNat = b1.toNat / 16 ∧ r2.toNat = b1.toNat % 16) ∧
    (sig.fmt = .three → ∀ b1 b2 rest, tail = b1 :: b2 :: rest → ∃ (v : BitVec 12) (d : MemOperand),
      v.toNat = b1.toNat % 16 * 256 + b2.toNat ∧
      d = ⟨b0.getLsbD 1, b0.getLsbD 0, b1.getLsbD 7, b1.getLsbD 6, b1.getLsbD 5, .disp12 v⟩ ∧
      sig.flags = ⟨b0.getLsbD 1, b0.getLsbD 0, b1.getLsbD 7, b1.getLsbD 6, b1.getLsbD 5, false⟩ ∧
      sig.disp12 = some v ∧ sig.addr20 = none ∧ sig.r1 = none ∧ sig.r2 = none ∧ sig.mode = addressingMode d ∧
      sig.ea = some (effAddr d sig.pcnext rB rX) ∧
      sig.imm = some (immediateValue source d (effAddr d sig.pcnext rB rX))) ∧
    (sig.fmt = .four → ∀ b1 b2 b3 rest, tail = b1 :: b2 :: b3 :: rest → ∃ (v : BitVec 20) (d : MemOperand),
      v.toNat = b1.toNat % 16 * 65536 + b2.toNat * 256 + b3.toNat ∧
      d = ⟨b0.getLsbD 1, b0.getLsbD 0, b1.getLsbD 7, b1.getLsbD 6, b1.getLsbD 5, .addr20 v⟩ ∧
      sig.flags = ⟨b0.getLsbD 1, b0.getLsbD 0, b1.getLsbD 7, b1.getLsbD 6, b1.getLsbD 5, true⟩ ∧
      sig.addr20 = some v ∧ sig.disp12 = none ∧ sig.r1 = none ∧ sig.r2 = none ∧ sig.mode = addressingMode d ∧
      sig.ea = some (effAddr d sig.pcnext rB rX) ∧
      sig.imm = some (immediateValue source d (effAddr d sig.pcnext rB rX)))) ∧
  (∀ (s : State) (bytes rest : List Byte) (i : Instr) (d : MemOperand),
    decode bytes = .ok (i, rest) → i.operands = .mem d →
    ∃ sig, decoderBlock Config.immediateValueSource s.regs.pc bytes s.regs.b s.regs.x = .ok sig ∧
      sig.pcnext = (dispatched s i).regs.pc ∧ sig.ea = some (operandEa d (dispatched s i)) ∧
      sig.imm = some (operandImmediate d (dispatched s i)))

/-- The boundary scan records all it reaches (R272): an address below the extent that holds no fill byte and that no record
covers past its first byte starts a record, if the instruction there and every such instruction before it fits below 0x10000;
and where one does not fit, the scan stops, with no record at its address or after it. -/
def Obligations.BoundaryScanIsComplete : Prop :=
  ∀ (m : Memory) (extent : Nat),
    let uncovered (a : Nat) : Prop :=
      ∀ r ∈ boundaryScan m extent, ¬(r.address.toNat < a ∧ a < r.address.toNat + r.length)
    let fits (a : Nat) : Prop := a + (formatOf (m.read a) (m.read (a + 1))).length ≤ 0x10000
    (∀ a < extent, m.read a ≠ 0xFF#8 → uncovered a → (∀ b ≤ a, m.read b ≠ 0xFF#8 → uncovered b → fits b) →
      ∃ r ∈ boundaryScan m extent, r.address.toNat = a) ∧
    (∀ a < extent, m.read a ≠ 0xFF#8 → uncovered a → ¬ fits a →
      ∀ r ∈ boundaryScan m extent, r.address.toNat < a)

/-- What a step reports (R98, R278): the record at PC as executed, none where no boundary starts there; the registers after the
step; halted and the fault as the status after it says; and the effective address. That is the operand address, EA under SIMPLE and
the word stored at EA under INDIRECT, of every format 3/4 instruction but RSUB, with semantics or without; none under IMMEDIATE,
for RSUB and in formats 1 and 2. That it is none too where the pointer word lies outside memory, and where the step decoded no
instruction, is the model's reading (log entry 16). -/
def Obligations.StepResultReports : Prop :=
  ∀ s t : State, step s = .next t →
    (∀ r, boundaryAt s.bounds s.regs.pc = some r → (stepResult s t).executed = some r) ∧
    ((∀ r ∈ s.bounds, r.address ≠ s.regs.pc) →
      (stepResult s t).executed = none ∧ (stepResult s t).fault = some (.noInstructionAtAddress s.regs.pc)) ∧
    (stepResult s t).registersAfter = t.regs ∧
    ((stepResult s t).halted = true ↔ t.status = .haltedOk ∨ Faulted t) ∧
    (∀ e, (stepResult s t).fault = some e ↔ t.status = .haltedErr e) ∧
    (∀ i d, fetch s = .run i → i.operands = .mem d → i.mnemonic ≠ some .rsub →
      (addressingMode d = .simple → (stepResult s t).effectiveAddressUsed = some (operandEa d (dispatched s i))) ∧
      (addressingMode d = .indirect → (operandEa d (dispatched s i)).toNat + 2 ≤ 0xFFFF →
        (stepResult s t).effectiveAddressUsed = some (s.mem.readWord (operandEa d (dispatched s i)).toNat)) ∧
      (addressingMode d = .indirect → 0xFFFF < (operandEa d (dispatched s i)).toNat + 2 →
        (stepResult s t).effectiveAddressUsed = none) ∧
      (addressingMode d = .immediate → (stepResult s t).effectiveAddressUsed = none)) ∧
    (∀ i, fetch s = .run i → i.mnemonic = some .rsub ∨ i.format = .one ∨ i.format = .two →
      (stepResult s t).effectiveAddressUsed = none) ∧
    ((∀ i, fetch s ≠ .run i) → (stepResult s t).effectiveAddressUsed = none)

/-- runToHalt is the run R279 describes, from every state, past its limit too: with some fuel it ends with the results and the
state exactly when the rule's own steps return them, and more fuel never changes a call that ended. That a call which starts
past the limit is never stopped by it is read from R279's test for equality (log entry 9). -/
def Obligations.RunToHaltFollowsTheRule : Prop :=
  (∀ (limit : Nat) (s u : State) (results : List StepResult),
    (∃ fuel, runToHalt limit fuel s = .ended results u) ↔ RunsToHalt limit s results u) ∧
  (∀ (limit fuel more : Nat) (s u : State) (results : List StepResult),
    runToHalt limit fuel s = .ended results u → fuel ≤ more → runToHalt limit more s = .ended results u)
end

