-- ==== Sys2Proof/Tests/Slice0.lean ====
section
/-!
SUPPORT. The model's own tests. An expected result is the spec's (spec/95_test_vectors.md, by the vector's name) or worked out
by hand from the encoding of R75 to R78. The witnesses at the end show, for each statement with hypotheses, a state and
operands that meet them.
-/

namespace Sys2Proof.Tests

open Sys2Proof.Machine Sys2Proof.Safety Sys2Proof.Claims

/-! ## Well-formedness -/

/-- A format 3 operand: n = i = 1, p = 1. -/
def short (v : BitVec 12) : MemOperand := ⟨true, true, false, false, true, .disp12 v⟩

/-- A format 4 operand: n = i = 1. -/
def long (v : BitVec 20) : MemOperand := ⟨true, true, false, false, false, .addr20 v⟩

theorem test_wellFormed_accepts :
    (Instr.lda (short 0xFFF#12)).wellFormed = true ∧ (Instr.ldaE (long 0xFFFFF#20)).wellFormed = true ∧
      (Instr.clear 15#4 15#4).wellFormed = true ∧ Instr.float.wellFormed = true := by decide

theorem test_wellFormed_refuses_address_in_format_three : (Instr.lda (long 0#20)).wellFormed = false := by decide

theorem test_wellFormed_refuses_displacement_in_format_four : (Instr.ldaE (short 0#12)).wellFormed = false := by decide

/-! ## Decoding: every constructor, from words written out from the encodings -/

/-- Each word decodes to the instruction beside it, with no byte left over. -/
def readsAll : List (List Byte × Instr) → Bool
  | [] => true
  | (word, i) :: rest =>
    (match decode word with
      | .ok (j, []) => decide (j = i)
      | _ => false) && readsAll rest

/-- Format 1 (R75). -/
theorem test_decode_format_one :
    readsAll [
      ([0xC0#8], .float),
      ([0xC4#8], .fix),
      ([0xC8#8], .norm),
      ([0xF0#8], .sio),
      ([0xF4#8], .hio),
      ([0xF8#8], .tio)] = true := by
  decide

/-- Format 2 (R76): byte_1 is r1, then r2. -/
theorem test_decode_format_two :
    readsAll [
      ([0x90#8, 0xF4#8], .addr 15#4 4#4),
      ([0x94#8, 0x47#8], .subr 4#4 7#4),
      ([0x98#8, 0x9A#8], .mulr 9#4 10#4),
      ([0x9C#8, 0xED#8], .divr 14#4 13#4),
      ([0xA0#8, 0x30#8], .compr 3#4 0#4),
      ([0xA4#8, 0x83#8], .shiftl 8#4 3#4),
      ([0xA8#8, 0xD6#8], .shiftr 13#4 6#4),
      ([0xAC#8, 0x29#8], .rmo 2#4 9#4),
      ([0xB0#8, 0x7C#8], .svc 7#4 12#4),
      ([0xB4#8, 0xCF#8], .clear 12#4 15#4),
      ([0xB8#8, 0x12#8], .tixr 1#4 2#4)] = true := by
  decide

/-- Format 3 (R77): byte_0 ends in n, i; byte_1 begins with x, b, p, e. -/
theorem test_decode_format_three_a :
    readsAll [
      ([0x02#8, 0x89#8, 0xA5#8], .lda ⟨true, false, true, false, false, .disp12 0x9A5#12⟩),
      ([0x04#8, 0x2C#8, 0x13#8], .ldx ⟨false, false, false, false, true, .disp12 0xC13#12⟩),
      ([0x0B#8, 0x6E#8, 0x81#8], .ldl ⟨true, true, false, true, true, .disp12 0xE81#12⟩),
      ([0x0D#8, 0x80#8, 0xEF#8], .sta ⟨false, true, true, false, false, .disp12 0x0EF#12⟩),
      ([0x12#8, 0x23#8, 0x5D#8], .stx ⟨true, false, false, false, true, .disp12 0x35D#12⟩),
      ([0x14#8, 0xE5#8, 0xCB#8], .stl ⟨false, false, true, true, true, .disp12 0x5CB#12⟩),
      ([0x1B#8, 0x88#8, 0x39#8], .add ⟨true, true, true, false, false, .disp12 0x839#12⟩),
      ([0x1D#8, 0x2A#8, 0xA7#8], .sub ⟨false, true, false, false, true, .disp12 0xAA7#12⟩),
      ([0x22#8, 0xED#8, 0x15#8], .mul ⟨true, false, true, true, true, .disp12 0xD15#12⟩),
      ([0x24#8, 0x4F#8, 0x83#8], .div ⟨false, false, false, true, false, .disp12 0xF83#12⟩),
      ([0x2B#8, 0x21#8, 0xF1#8], .comp ⟨true, true, false, false, true, .disp12 0x1F1#12⟩),
      ([0x2D#8, 0xE4#8, 0x5F#8], .tix ⟨false, true, true, true, true, .disp12 0x45F#12⟩)] = true := by
  decide

/-- Format 3 (R77): byte_0 ends in n, i; byte_1 begins with x, b, p, e. -/
theorem test_decode_format_three_b :
    readsAll [
      ([0x32#8, 0x46#8, 0xCD#8], .jeq ⟨true, false, false, true, false, .disp12 0x6CD#12⟩),
      ([0x34#8, 0xA9#8, 0x3B#8], .jgt ⟨false, false, true, false, true, .disp12 0x93B#12⟩),
      ([0x3B#8, 0xEB#8, 0xA9#8], .jlt ⟨true, true, true, true, true, .disp12 0xBA9#12⟩),
      ([0x3D#8, 0x4E#8, 0x17#8], .j ⟨false, true, false, true, false, .disp12 0xE17#12⟩),
      ([0x42#8, 0xA0#8, 0x85#8], .and ⟨true, false, true, false, true, .disp12 0x085#12⟩),
      ([0x44#8, 0x02#8, 0xF3#8], .or ⟨false, false, false, false, false, .disp12 0x2F3#12⟩),
      ([0x4B#8, 0x45#8, 0x61#8], .jsub ⟨true, true, false, true, false, .disp12 0x561#12⟩),
      ([0x4D#8, 0xA7#8, 0xCF#8], .rsub ⟨false, true, true, false, true, .disp12 0x7CF#12⟩),
      ([0x52#8, 0x0A#8, 0x3D#8], .ldch ⟨true, false, false, false, false, .disp12 0xA3D#12⟩),
      ([0x54#8, 0xCC#8, 0xAB#8], .stch ⟨false, false, true, true, false, .disp12 0xCAB#12⟩),
      ([0x5B#8, 0xAF#8, 0x19#8], .addf ⟨true, true, true, false, true, .disp12 0xF19#12⟩),
      ([0x5D#8, 0x01#8, 0x87#8], .subf ⟨false, true, false, false, false, .disp12 0x187#12⟩)] = true := by
  decide

/-- Format 3 (R77): byte_0 ends in n, i; byte_1 begins with x, b, p, e. -/
theorem test_decode_format_three_c :
    readsAll [
      ([0x62#8, 0xC3#8, 0xF5#8], .mulf ⟨true, false, true, true, false, .disp12 0x3F5#12⟩),
      ([0x64#8, 0x66#8, 0x63#8], .divf ⟨false, false, false, true, true, .disp12 0x663#12⟩),
      ([0x6B#8, 0x08#8, 0xD1#8], .ldb ⟨true, true, false, false, false, .disp12 0x8D1#12⟩),
      ([0x6D#8, 0xCB#8, 0x3F#8], .lds ⟨false, true, true, true, false, .disp12 0xB3F#12⟩),
      ([0x72#8, 0x6D#8, 0xAD#8], .ldf ⟨true, false, false, true, true, .disp12 0xDAD#12⟩),
      ([0x74#8, 0x80#8, 0x1B#8], .ldt ⟨false, false, true, false, false, .disp12 0x01B#12⟩),
      ([0x7B#8, 0xC2#8, 0x89#8], .stb ⟨true, true, true, true, false, .disp12 0x289#12⟩),
      ([0x7D#8, 0x64#8, 0xF7#8], .sts ⟨false, true, false, true, true, .disp12 0x4F7#12⟩),
      ([0x82#8, 0x87#8, 0x65#8], .stf ⟨true, false, true, false, false, .disp12 0x765#12⟩),
      ([0x84#8, 0x29#8, 0xD3#8], .stt ⟨false, false, false, false, true, .disp12 0x9D3#12⟩),
      ([0x8B#8, 0x6C#8, 0x41#8], .compf ⟨true, true, false, true, true, .disp12 0xC41#12⟩),
      ([0xD3#8, 0x2F#8, 0xB1#8], .lps ⟨true, true, false, false, true, .disp12 0xFB1#12⟩)] = true := by
  decide

/-- Format 3 (R77): byte_0 ends in n, i; byte_1 begins with x, b, p, e. -/
theorem test_decode_format_three_d :
    readsAll [
      ([0xD5#8, 0xE2#8, 0x1F#8], .sti ⟨false, true, true, true, true, .disp12 0x21F#12⟩),
      ([0xDA#8, 0x44#8, 0x8D#8], .rd ⟨true, false, false, true, false, .disp12 0x48D#12⟩),
      ([0xDC#8, 0xA6#8, 0xFB#8], .wd ⟨false, false, true, false, true, .disp12 0x6FB#12⟩),
      ([0xE3#8, 0xE9#8, 0x69#8], .td ⟨true, true, true, true, true, .disp12 0x969#12⟩),
      ([0xE9#8, 0x4B#8, 0xD7#8], .stsw ⟨false, true, false, true, false, .disp12 0xBD7#12⟩),
      ([0xEE#8, 0xAE#8, 0x45#8], .ssk ⟨true, false, true, false, true, .disp12 0xE45#12⟩),
      ([0x8F#8, 0x44#8, 0x58#8], .none8C ⟨true, true, false, true, false, .disp12 0x458#12⟩),
      ([0xBD#8, 0xA6#8, 0xC6#8], .noneBC ⟨false, true, true, false, true, .disp12 0x6C6#12⟩),
      ([0xCE#8, 0x09#8, 0x34#8], .noneCC ⟨true, false, false, false, false, .disp12 0x934#12⟩),
      ([0xE4#8, 0xCB#8, 0xA2#8], .noneE4 ⟨false, false, true, true, false, .disp12 0xBA2#12⟩),
      ([0xFF#8, 0xAE#8, 0x10#8], .noneFC ⟨true, true, true, false, true, .disp12 0xE10#12⟩)] = true := by
  decide

/-- Format 4 (R78): byte_0 ends in n, i; byte_1 begins with x, b, p, e. -/
theorem test_decode_format_four_a :
    readsAll [
      ([0x02#8, 0xBD#8, 0x6B#8, 0x22#8], .ldaE ⟨true, false, true, false, true, .addr20 0xD6B22#20⟩),
      ([0x04#8, 0x1F#8, 0xD6#8, 0x14#8], .ldxE ⟨false, false, false, false, false, .addr20 0xFD614#20⟩),
      ([0x0B#8, 0x52#8, 0x41#8, 0x06#8], .ldlE ⟨true, true, false, true, false, .addr20 0x24106#20⟩),
      ([0x0D#8, 0xB4#8, 0xAB#8, 0xF8#8], .staE ⟨false, true, true, false, true, .addr20 0x4ABF8#20⟩),
      ([0x12#8, 0x17#8, 0x16#8, 0xEA#8], .stxE ⟨true, false, false, false, false, .addr20 0x716EA#20⟩),
      ([0x14#8, 0xD9#8, 0x81#8, 0xDC#8], .stlE ⟨false, false, true, true, false, .addr20 0x981DC#20⟩),
      ([0x1B#8, 0xBB#8, 0xEC#8, 0xCE#8], .addE ⟨true, true, true, false, true, .addr20 0xBECCE#20⟩),
      ([0x1D#8, 0x1E#8, 0x57#8, 0xC0#8], .subE ⟨false, true, false, false, false, .addr20 0xE57C0#20⟩),
      ([0x22#8, 0xD0#8, 0xC2#8, 0xB2#8], .mulE ⟨true, false, true, true, false, .addr20 0x0C2B2#20⟩),
      ([0x24#8, 0x73#8, 0x2D#8, 0xA4#8], .divE ⟨false, false, false, true, true, .addr20 0x32DA4#20⟩),
      ([0x2B#8, 0x15#8, 0x98#8, 0x96#8], .compE ⟨true, true, false, false, false, .addr20 0x59896#20⟩),
      ([0x2D#8, 0xD8#8, 0x03#8, 0x88#8], .tixE ⟨false, true, true, true, false, .addr20 0x80388#20⟩)] = true := by
  decide

/-- Format 4 (R78): byte_0 ends in n, i; byte_1 begins with x, b, p, e. -/
theorem test_decode_format_four_b :
    readsAll [
      ([0x32#8, 0x7A#8, 0x6E#8, 0x7A#8], .jeqE ⟨true, false, false, true, true, .addr20 0xA6E7A#20⟩),
      ([0x34#8, 0x9C#8, 0xD9#8, 0x6C#8], .jgtE ⟨false, false, true, false, false, .addr20 0xCD96C#20⟩),
      ([0x3B#8, 0xDF#8, 0x44#8, 0x5E#8], .jltE ⟨true, true, true, true, false, .addr20 0xF445E#20⟩),
      ([0x3D#8, 0x71#8, 0xAF#8, 0x50#8], .jE ⟨false, true, false, true, true, .addr20 0x1AF50#20⟩),
      ([0x42#8, 0x94#8, 0x1A#8, 0x42#8], .andE ⟨true, false, true, false, false, .addr20 0x41A42#20⟩),
      ([0x44#8, 0x36#8, 0x85#8, 0x34#8], .orE ⟨false, false, false, false, true, .addr20 0x68534#20⟩),
      ([0x4B#8, 0x78#8, 0xF0#8, 0x26#8], .jsubE ⟨true, true, false, true, true, .addr20 0x8F026#20⟩),
      ([0x4D#8, 0x9B#8, 0x5B#8, 0x18#8], .rsubE ⟨false, true, true, false, false, .addr20 0xB5B18#20⟩),
      ([0x52#8, 0x3D#8, 0xC6#8, 0x0A#8], .ldchE ⟨true, false, false, false, true, .addr20 0xDC60A#20⟩),
      ([0x54#8, 0xF0#8, 0x30#8, 0xFC#8], .stchE ⟨false, false, true, true, true, .addr20 0x030FC#20⟩),
      ([0x5B#8, 0x92#8, 0x9B#8, 0xEE#8], .addfE ⟨true, true, true, false, false, .addr20 0x29BEE#20⟩),
      ([0x5D#8, 0x35#8, 0x06#8, 0xE0#8], .subfE ⟨false, true, false, false, true, .addr20 0x506E0#20⟩)] = true := by
  decide

/-- Format 4 (R78): byte_0 ends in n, i; byte_1 begins with x, b, p, e. -/
theorem test_decode_format_four_c :
    readsAll [
      ([0x62#8, 0xF7#8, 0x71#8, 0xD2#8], .mulfE ⟨true, false, true, true, true, .addr20 0x771D2#20⟩),
      ([0x64#8, 0x59#8, 0xDC#8, 0xC4#8], .divfE ⟨false, false, false, true, false, .addr20 0x9DCC4#20⟩),
      ([0x6B#8, 0x3C#8, 0x47#8, 0xB6#8], .ldbE ⟨true, true, false, false, true, .addr20 0xC47B6#20⟩),
      ([0x6D#8, 0xFE#8, 0xB2#8, 0xA8#8], .ldsE ⟨false, true, true, true, true, .addr20 0xEB2A8#20⟩),
      ([0x72#8, 0x51#8, 0x1D#8, 0x9A#8], .ldfE ⟨true, false, false, true, false, .addr20 0x11D9A#20⟩),
      ([0x74#8, 0xB3#8, 0x88#8, 0x8C#8], .ldtE ⟨false, false, true, false, true, .addr20 0x3888C#20⟩),
      ([0x7B#8, 0xF5#8, 0xF3#8, 0x7E#8], .stbE ⟨true, true, true, true, true, .addr20 0x5F37E#20⟩),
      ([0x7D#8, 0x58#8, 0x5E#8, 0x70#8], .stsE ⟨false, true, false, true, false, .addr20 0x85E70#20⟩),
      ([0x82#8, 0xBA#8, 0xC9#8, 0x62#8], .stfE ⟨true, false, true, false, true, .addr20 0xAC962#20⟩),
      ([0x84#8, 0x1D#8, 0x34#8, 0x54#8], .sttE ⟨false, false, false, false, false, .addr20 0xD3454#20⟩),
      ([0x8B#8, 0x5F#8, 0x9F#8, 0x46#8], .compfE ⟨true, true, false, true, false, .addr20 0xF9F46#20⟩),
      ([0xD3#8, 0x12#8, 0xF6#8, 0xD6#8], .lpsE ⟨true, true, false, false, false, .addr20 0x2F6D6#20⟩)] = true := by
  decide

/-- Format 4 (R78): byte_0 ends in n, i; byte_1 begins with x, b, p, e. -/
theorem test_decode_format_four_d :
    readsAll [
      ([0xD5#8, 0xD5#8, 0x61#8, 0xC8#8], .stiE ⟨false, true, true, true, false, .addr20 0x561C8#20⟩),
      ([0xDA#8, 0x77#8, 0xCC#8, 0xBA#8], .rdE ⟨true, false, false, true, true, .addr20 0x7CCBA#20⟩),
      ([0xDC#8, 0x9A#8, 0x37#8, 0xAC#8], .wdE ⟨false, false, true, false, false, .addr20 0xA37AC#20⟩),
      ([0xE3#8, 0xDC#8, 0xA2#8, 0x9E#8], .tdE ⟨true, true, true, true, false, .addr20 0xCA29E#20⟩),
      ([0xE9#8, 0x7F#8, 0x0D#8, 0x90#8], .stswE ⟨false, true, false, true, true, .addr20 0xF0D90#20⟩),
      ([0xEE#8, 0x91#8, 0x78#8, 0x82#8], .sskE ⟨true, false, true, false, false, .addr20 0x17882#20⟩),
      ([0x8D#8, 0x97#8, 0x83#8, 0xDF#8], .none8CE ⟨false, true, true, false, false, .addr20 0x783DF#20⟩),
      ([0xBE#8, 0x39#8, 0xEE#8, 0xD1#8], .noneBCE ⟨true, false, false, false, true, .addr20 0x9EED1#20⟩),
      ([0xCC#8, 0xFC#8, 0x59#8, 0xC3#8], .noneCCE ⟨false, false, true, true, true, .addr20 0xC59C3#20⟩),
      ([0xE7#8, 0x9E#8, 0xC4#8, 0xB5#8], .noneE4E ⟨true, true, true, false, false, .addr20 0xEC4B5#20⟩),
      ([0xFD#8, 0x31#8, 0x2F#8, 0xA7#8], .noneFCE ⟨false, true, false, false, true, .addr20 0x12FA7#20⟩)] = true := by
  decide
/-! ## The words of the opcode table, and the fetch -/

/-- A table word is read most significant byte first (R8, R93): +LDA is 0x00100000. -/
theorem test_decodeTableWord :
    decodeTableWord 32 0x03100200 = some (.ldaE (long 0x00200#20)) ∧
      decodeTableWord 16 0xB410 = some (.clear 1#4 0#4) ∧ decodeTableWord 8 0xC0 = some .float := by decide

theorem test_withFetchWord_runs : fetch (State.reset.withFetchWord 24 0x4F0000) =
    .run (.rsub ⟨true, true, false, false, false, .disp12 0#12⟩) := by decide

/-! ## One step of each implemented instruction -/

/-- A state after reset with memory bytes written, registers set, and one instruction loaded at `pc`. -/
def ready (pc : Word) (bytes : List Byte) (regs : Regs → Regs) (cells : List Host.Cell) : State :=
  placeInstruction { State.reset with
    regs := { regs State.reset.regs with pc := pc }
    mem := cells.foldl (fun m c => m.write c.1 c.2) [] } bytes

/-- The same with device 0xF1 as given. -/
def readyWith (dev : Device) (pc : Word) (bytes : List Byte) (regs : Regs → Regs) (cells : List Host.Cell) : State :=
  (ready pc bytes regs cells).setDevice 0xF1#8 dev

/-- An available device with the given input, untouched. -/
def fresh (input : List Byte) : Device := { Device.absent with avail := true, input := input }

/-- What a look at the state after one step shows. -/
def seen {α : Type} (s : State) (look : State → α) : Option α :=
  match step s with
  | .next t => some (look t)
  | .fault _ => none
  | .refused _ => none

/-- V-RG1. -/
theorem test_clear_a : seen (ready 0x1000#24 [0xB4#8, 0x00#8] (fun r => { r with a := 0x123456#24 }) [])
    (fun t => (t.regs.a, t.regs.pc)) = some (0#24, 0x1002#24) := by decide

/-- V-RG8. -/
theorem test_clear_unassigned : seen (ready 0x1000#24 [0xB4#8, 0xA0#8] id [])
    (fun t => (t.status, t.regs.pc)) = some (.haltedErr (.illegalRegister 0x1000#24 10#4), 0x1002#24) := by decide

/-- V-RG10. -/
theorem test_compr_signed :
    seen (ready 0#24 [0xA0#8, 0x05#8] (fun r => { r with a := 0x800000#24, t := 0x7FFFFF#24 }) [])
      (fun t => t.regs.sw) = some 0xFFFFFF#24 := by decide

/-- V-RG13. -/
theorem test_compr_pc_reads_next : seen (ready 0x1000#24 [0xA0#8, 0x80#8] (fun r => { r with a := 0x1002#24, sw := 1#24 }) [])
    (fun t => t.regs.sw) = some 0#24 := by decide

/-- V-RG22. -/
theorem test_tixr_x : seen (ready 0#24 [0xB8#8, 0x10#8] (fun r => { r with x := 4#24, sw := 1#24 }) [])
    (fun t => (t.regs.x, t.regs.sw)) = some (5#24, 0#24) := by decide

/-- V-RG23. -/
theorem test_tixr_signed : seen (ready 0#24 [0xB8#8, 0x00#8] (fun r => { r with x := 0x7FFFFF#24 }) [])
    (fun t => (t.regs.x, t.regs.sw)) = some (0x800000#24, 0xFFFFFF#24) := by decide

/-- V-L1. -/
theorem test_lda : seen (ready 0x0100#24 [0x03#8, 0x20#8, 0x03#8] id [(0x106, 0x12#8), (0x107, 0x34#8), (0x108, 0x56#8)])
    (fun t => (t.regs.a, t.regs.pc)) = some (0x123456#24, 0x103#24) := by decide

/-- V-D17, with the word at address 0: the sum with X wraps. -/
theorem test_lda_index_wraps :
    seen (ready 0x100#24 [0x03#8, 0x9F#8, 0xFF#8, 0xFF#8] (fun r => { r with x := 0xF00001#24 })
      [(0, 0x0A#8), (1, 0x0B#8), (2, 0x0C#8)]) (fun t => t.regs.a) = some 0x0A0B0C#24 := by decide

/-- V-L10. -/
theorem test_ldtE : seen (ready 0x100#24 [0x77#8, 0x10#8, 0x02#8, 0x00#8] id [(0x200, 0xAB#8), (0x201, 0xCD#8), (0x202, 0xEF#8)])
    (fun t => (t.regs.t, t.regs.pc)) = some (0xABCDEF#24, 0x104#24) := by decide

/-- V-L9. -/
theorem test_ldt_immediate : seen (ready 0#24 [0x75#8, 0x00#8, 0x03#8] id []) (fun t => t.regs.t) = some 3#24 := by decide

/-- V-L11. -/
theorem test_ldch : seen (ready 0x1005#24 [0x53#8, 0xA0#8, 0x0B#8] (fun r => { r with a := 0x123456#24 }) [(0x1013, 0x41#8)])
    (fun t => t.regs.a) = some 0x123441#24 := by decide

/-- V-L12. -/
theorem test_ldch_immediate : seen (ready 0#24 [0x51#8, 0x01#8, 0xFF#8] (fun r => { r with a := 0x123456#24 }) [])
    (fun t => t.regs.a) = some 0x1234FF#24 := by decide

/-- V-L15. -/
theorem test_staE_top : seen (ready 0#24 [0x0F#8, 0x10#8, 0xFF#8, 0xFD#8] (fun r => { r with a := 0xA1B2C3#24 }) [])
    (fun t => t.mem.readBytes 0xFFFC 4) = some [0xFF#8, 0xA1#8, 0xB2#8, 0xC3#8] := by decide

/-- V-L16. -/
theorem test_staE_past_the_top : seen (ready 0#24 [0x0F#8, 0x10#8, 0xFF#8, 0xFE#8] (fun r => { r with a := 0xA1B2C3#24 }) [])
    (fun t => (t.mem.readBytes 0xFFFE 2, t.status)) =
      some ([0xFF#8, 0xFF#8], .haltedErr (.memoryFault 0xFFFE#24)) := by decide

/-- V-L19. -/
theorem test_stl : seen (ready 0x3000#24 [0x17#8, 0x20#8, 0x00#8] (fun r => { r with l := 0x1234#24 }) [])
    (fun t => t.mem.readBytes 0x3003 3) = some [0x00#8, 0x12#8, 0x34#8] := by decide

/-- V-L21. -/
theorem test_stxE : seen (ready 0#24 [0x13#8, 0x10#8, 0x40#8, 0x00#8] (fun r => { r with x := 0x0A#24 }) [])
    (fun t => t.mem.readBytes 0x4000 3) = some [0x00#8, 0x00#8, 0x0A#8] := by decide

/-- V-L22. -/
theorem test_stch : seen (ready 0x1008#24 [0x57#8, 0xA0#8, 0x0B#8] (fun r => { r with a := 0x42#24, x := 1#24 }) [])
    (fun t => t.mem.readBytes 0x1016 3) = some [0xFF#8, 0x42#8, 0xFF#8] := by decide

/-- V-C4. -/
theorem test_comp_signed : seen (ready 0#24 [0x29#8, 0x0F#8, 0xFF#8] (fun r => { r with a := 0xFFFFFF#24 }) [])
    (fun t => t.regs.sw) = some 0xFFFFFF#24 := by decide

/-- V-C7. -/
theorem test_j_indirect_to_sentinel : seen (ready 0x2007#24 [0x3E#8, 0x20#8, 0x00#8] id [])
    (fun t => (t.regs.pc, t.status)) = some (0xFFFFFF#24, .haltedOk) := by decide

/-- V-C6. -/
theorem test_j_backwards : seen (ready 0x0100#24 [0x3F#8, 0x2F#8, 0xFD#8] id [])
    (fun t => (t.regs.pc, t.status)) = some (0x100#24, .running) := by decide

/-- V-C11. -/
theorem test_jeq_taken : seen (ready 0x2016#24 [0x33#8, 0x20#8, 0x02#8] id []) (fun t => t.regs.pc) = some 0x201B#24 := by
  decide

/-- V-C15. -/
theorem test_jeq_pointer_fault_not_taken :
    seen (ready 0#24 [0x32#8, 0x10#8, 0xFF#8, 0xFE#8] (fun r => { r with sw := 1#24 }) [])
      (fun t => t.status) = some (.haltedErr (.memoryFault 0xFFFE#24)) := by decide

/-- V-C18. -/
theorem test_jlt_not_taken : seen (ready 0x100D#24 [0x3B#8, 0x2F#8, 0xF5#8] (fun r => { r with sw := 1#24 }) [])
    (fun t => t.regs.pc) = some 0x1010#24 := by decide

/-- V-C19. -/
theorem test_jlt_bit_23 : seen (ready 0x100D#24 [0x3B#8, 0x2F#8, 0xF5#8] (fun r => { r with sw := 0x800000#24 }) [])
    (fun t => t.regs.pc) = some 0x1005#24 := by decide

/-- V-C20. -/
theorem test_jsubE : seen (ready 0x2000#24 [0x4B#8, 0x10#8, 0x20#8, 0x10#8] id [])
    (fun t => (t.regs.l, t.regs.pc)) = some (0x2004#24, 0x2010#24) := by decide

/-- V-C23. -/
theorem test_jsub_immediate : seen (ready 0x50#24 [0x49#8, 0x00#8, 0x10#8] id [])
    (fun t => (t.regs.l, t.status)) = some (0xFFFFFF#24, .haltedErr (.illegalAddressingMode 0x50#24 .jsub)) := by decide

/-- V-C26. -/
theorem test_rsub_four_bytes : seen (ready 0x1000#24 [0x4C#8, 0xFF#8, 0xFF#8, 0xFF#8] (fun r => { r with l := 0#24 }) [])
    (fun t => (t.regs.pc, t.status)) = some (0#24, .running) := by decide

/-- V-C25. -/
theorem test_rsub_halts : seen (ready 0#24 [0x4F#8, 0x00#8, 0x00#8] id [])
    (fun t => (t.status, t.steps)) = some (.haltedOk, 1) := by decide

/-- V-IO3. -/
theorem test_td_unavailable :
    seen (ready 0#24 [0xE3#8, 0x20#8, 0x00#8] (fun r => { r with sw := 1#24 }) [(3, 0x07#8)])
      (fun t => (t.regs.sw, t.status)) = some (0#24, .running) := by decide

/-- V-IO1 and V-IO2: the answer is the oracle's. -/
theorem test_td_available : seen (readyWith (fresh []) 0#24 [0xE3#8, 0x20#8, 0x00#8] id [(3, 0xF1#8)])
    (fun t => t.regs.sw) = some (if Config.tdReady 0xF1#8 0 then 1#24 else 0#24) := rfl

/-- V-IO8. -/
theorem test_rd : seen (readyWith (fresh [0xFF#8]) 0#24 [0xDB#8, 0x20#8, 0x00#8] (fun r => { r with a := 0x123456#24 }) [(3, 0xF1#8)])
    (fun t => (t.regs.a, (t.device 0xF1#8).rpos, (t.device 0xF1#8).used)) = some (0xFF#24, 1, .read) := by decide

/-- V-IO9. -/
theorem test_rd_unavailable : seen (ready 0#24 [0xDB#8, 0x20#8, 0x00#8] id [(3, 0x07#8)])
    (fun t => t.status) = some (.haltedErr (.deviceUnavailable 0x07#8)) := by decide

/-- V-IO13. -/
theorem test_wd : seen (readyWith (fresh []) 0#24 [0xDF#8, 0x20#8, 0x00#8] (fun r => { r with a := 0x123448#24 }) [(3, 0xF1#8)])
    (fun t => ((t.device 0xF1#8).out, t.regs.a, (t.device 0xF1#8).used)) = some ([0x48#8], 0x123448#24, .write) := by decide

/-- V-IO15. -/
theorem test_wd_after_rd :
    seen (readyWith { fresh [] with used := .read } 0#24 [0xDF#8, 0x20#8, 0x00#8] id [(3, 0xF1#8)])
      (fun t => (t.status, (t.device 0xF1#8).out)) = some (.haltedErr (.deviceDirectionConflict 0xF1#8), []) := by decide

/-- V-U1. -/
theorem test_add_has_no_semantics : seen (ready 0x1000#24 [0x1B#8, 0x00#8, 0x01#8] (fun r => { r with a := 7#24 }) [])
    (fun t => (t.regs.a, t.regs.pc, t.status, t.steps)) =
      some (7#24, 0x1003#24, .haltedErr (.unknownMnemonic 0x1000#24 0x18#8), 1) := by decide

/-- V-U4. -/
theorem test_float_has_no_semantics : seen (ready 0x1000#24 [0xC0#8] id [])
    (fun t => (t.regs.pc, t.status)) = some (0x1001#24, .haltedErr (.unknownMnemonic 0x1000#24 0xC0#8)) := by decide

/-! ## The controller -/

/-- V-F3. -/
theorem test_no_instruction : seen { State.reset with regs := { State.reset.regs with pc := 0x500#24 } }
    (fun t => (t.status, t.regs.pc, t.steps)) =
      some (.haltedErr (.noInstructionAtAddress 0x500#24), 0x500#24, 0) := by decide

/-- V-F4. -/
theorem test_self_modified :
    let s := ready 0x40#24 [0x1B#8, 0x00#8, 0x01#8] id []
    seen (s.setMem (s.mem.write 0x40 0x03#8)) (fun t => (t.status, t.steps)) =
      some (.haltedErr (.selfModifiedInstruction 0x40#24), 0) := by decide

/-- Memory from address 0 on. -/
def image (bytes : List Byte) : Memory := Memory.writeBytes [] 0 bytes

/-- V-B1. -/
theorem test_scan_skips_fill :
    (boundaryScan (image [0xFF#8, 0xFF#8, 0x4F#8, 0x00#8, 0x00#8, 0xFF#8, 0xB4#8, 0x10#8]) 8).map
      (fun r => (r.address, r.mnemonic, r.length)) =
      [(2#24, some .rsub, 3), (6#24, some .clear, 2)] := by decide

/-- V-B5. -/
theorem test_scan_cuts_data :
    (boundaryScan (image [0x4F#8, 0x00#8, 0x00#8, 0x41#8, 0x42#8, 0x43#8]) 6).map (fun r => (r.address, r.mnemonic)) =
      [(0#24, some .rsub), (3#24, some .and)] := by decide

/-- What a returned call of runToHalt shows: its results, each through `look`, and the status and step count it leaves. -/
def returned {α : Type} (look : StepResult → α) : RunOutcome → Option (List α × Status × Nat)
  | .ended results last => some (results.map look, last.status, last.steps)
  | .unfinished _ _ => none
  | .refused _ _ => none

/-- S8. -/
theorem test_runToHalt_rsub :
    let p : Launch := { image := [(0, 0x4F#8), (1, 0x00#8), (2, 0x00#8)], extent := 3, pc0 := 0#24,
                        initRegs := State.reset.regs, devices := [] }
    returned (fun r => (r.halted, r.effectiveAddressUsed)) (runToHalt 10 2 (State.launch p)) =
      some ([(true, none)], .haltedOk, 1) := by decide

/-- V-F6. -/
theorem test_runToHalt_limit :
    returned (fun r => r.effectiveAddressUsed) (runToHalt 3 4 (ready 0x100#24 [0x3F#8, 0x2F#8, 0xFD#8] id [])) =
      some ([some 0x100#24, some 0x100#24, some 0x100#24], .haltedErr (.stepLimitExceeded 3), 3) := by decide

/-- A call that starts past its limit goes on until the machine halts (R279). -/
theorem test_runToHalt_past_the_limit :
    let s := { ready 0#24 [0x4F#8, 0x00#8, 0x00#8] id [] with steps := 5 }
    returned (fun r => r.halted) (runToHalt 3 2 s) = some ([true], .haltedOk, 6) := by decide

/-- The address a step from `s` reports. -/
def reported (s : State) : Option (Option Word) := seen s fun t => (stepResult s t).effectiveAddressUsed

/-- V-L5. -/
theorem test_reported_indirect :
    reported (ready 0x100#24 [0x02#8, 0x00#8, 0x10#8] id [(0x10, 0x00#8), (0x11, 0x02#8), (0x12, 0x00#8)]) =
      some (some 0x200#24) := by decide

/-- V-D15: LDX has no semantics and reports its operand address all the same (R98). -/
theorem test_reported_without_semantics :
    reported (ready 0x100#24 [0x07#8, 0x90#8, 0x00#8, 0x10#8] (fun r => { r with x := 5#24 }) []) =
      some (some 0x15#24) := by decide

/-! ## Witnesses: states and operands that meet the hypotheses of the statements -/

/-- A SIMPLE operand, direct, at the top of what 20 bits name. -/
def at20 (v : BitVec 20) : MemOperand := long v
/-- An INDIRECT operand. -/
def via20 (v : BitVec 20) : MemOperand := ⟨true, false, false, false, false, .addr20 v⟩
/-- An IMMEDIATE operand. -/
def value12 (v : BitVec 12) : MemOperand := ⟨false, true, false, false, false, .disp12 v⟩

/-- Reset with a pointer to 0x00FFFD at 0x10, one to 0xFFFFFF at 0x20 (memory there is fill), a device id at 0x30, and device
0xF1 as given. -/
def base (dev : Device) : State :=
  ({ State.reset with mem := (Memory.writeBytes [] 0x10 [0x00#8, 0xFF#8, 0xFD#8]).write 0x30 0xF1#8 }).setDevice 0xF1#8 dev

theorem witness_DecodeOfEncode :
    (Instr.staE (via20 0xFFFFF#20)).wellFormed = true ∧ (Instr.lda (value12 0x800#12)).wellFormed = true ∧
      (Instr.compr 15#4 0#4).wellFormed = true ∧ Instr.tio.wellFormed = true := by decide

theorem witness_EncodeOfDecode :
    readsAll [([0xB7#8, 0x10#8], .clear 1#4 0#4), ([0x03#8, 0x1F#8, 0xFF#8, 0xFF#8], .ldaE (long 0xFFFFF#20))] = true := by
  decide

theorem witness_DecodeIsTotal :
    (formatOf 0xC3#8 0#8).length = 1 ∧ (formatOf 0x03#8 0x1F#8).length ≤ [0x03#8, 0x1F#8, 0xFF#8, 0xFF#8].length ∧
      (∃ r, recordOf 0#24 [0xB4#8, 0x10#8] = .ok r ∧ r.format = .two) ∧
      (∃ r, recordOf 0#24 [0x03#8, 0x1F#8, 0xFF#8, 0xFF#8] = .ok r ∧ r.format = .four) ∧
      ∃ t, step State.reset = .next t :=
  ⟨rfl, by decide, ⟨_, rfl, rfl⟩, ⟨_, rfl, rfl⟩, _, rfl⟩

theorem witness_LengthEqualsFormatNumber :
    readsAll [([0xFF#8, 0x0F#8, 0xFF#8], .noneFC ⟨true, true, false, false, false, .disp12 0xFFF#12⟩)] = true ∧
      formatOf 0xF0#8 0xFF#8 = .one ∧ formatOf 0xB8#8 0xFF#8 = .two := by decide

theorem witness_LowBitsSelectNothing :
    (0xB5#8 : Byte) &&& 0xFC#8 = 0xB4#8 &&& 0xFC#8 ∧ (0x03#8 : Byte) &&& 0xFC#8 = 0x00#8 &&& 0xFC#8 ∧
      readsAll [([0xB5#8, 0x10#8], .clear 1#4 0#4), ([0x03#8, 0x00#8, 0x00#8], .lda ⟨true, true, false, false, false, .disp12 0#12⟩)]
        = true := by decide

theorem witness_EffectiveAddressArithmetic :
    (at20 0xFFFFF#20).field = .addr20 0xFFFFF#20 ∧ (short 0x800#12).field = .disp12 0x800#12 ∧ (short 0x800#12).p = true ∧
      ({ short 0x7FF#12 with p := false, b := true } : MemOperand).p = false ∧ (value12 0xFFF#12).b = false := by decide

theorem witness_AddressingModes :
    addressingMode (at20 0#20) = .simple ∧ addressingMode (value12 0#12) = .immediate ∧
      addressingMode (via20 0x10#20) = .indirect ∧
      memReadWord (base Device.absent) (operandEa (via20 0x10#20) (base Device.absent)) = .ok 0x00FFFD#24 ∧
      ∃ sig, decoderBlock .field 0#24 [0x4F#8, 0x00#8, 0x00#8] 0#24 0#24 = .ok sig :=
  ⟨rfl, rfl, rfl, rfl, _, rfl⟩

theorem witness_ImmediateValueReadings :
    (value12 0xFFF#12).field = .disp12 0xFFF#12 ∧ (at20 0xFFFFF#20).field = .addr20 0xFFFFF#20 ∧
      (value12 0xFFF#12).b = false ∧ (value12 0xFFF#12).p = false ∧ (value12 0xFFF#12).x = false := by decide

theorem witness_WordWriteEffect :
    (0xFFFD#24 : Word).toNat + 2 ≤ 0xFFFF ∧ 0xFFFF < (0xFFFE#24 : Word).toNat + 2 := by decide

theorem witness_ByteWriteEffect : (0xFFFF#24 : Word).toNat ≤ 0xFFFF ∧ 0xFFFF < (0x10000#24 : Word).toNat := by decide

theorem witness_AccessBoundsCheck :
    (∃ k < 1, 0x10000 ≤ (0x10000#24 : Word).toNat + k) ∧ (∀ k < 1, (0xFFFF#24 : Word).toNat + k < 0x10000) ∧
      (∃ k < 3, 0x10000 ≤ (0xFFFE#24 : Word).toNat + k) ∧ (∀ k < 3, (0xFFFD#24 : Word).toNat + k < 0x10000) := by decide

theorem witness_CanonicalMemoryIsExtensional :
    let m : Memory := [(0, 0#8), (0xFFFF, 0xFE#8)]
    m.wf = true ∧ ((Memory.write [] 0xFFFF 0xFE#8).write 0 0#8).wf = true ∧
      ∀ a, m.read a = ((Memory.write [] 0xFFFF 0xFE#8).write 0 0#8).read a := ⟨rfl, rfl, fun _ => rfl⟩

/-- WordLoadResult, WordStoreResult and CompareResult: the last word of memory, direct and through a pointer; an immediate. -/
theorem witness_word_operand :
    operandAt (at20 0xFFFD#20) State.reset 0xFFFD#24 = true ∧
      operandAt (via20 0x10#20) (base Device.absent) 0xFFFD#24 = true ∧ (0xFFFD#24 : Word).toNat + 2 ≤ 0xFFFF ∧
      addressingMode (value12 0xFFF#12) = .immediate := by decide

/-- ByteLoadResult and ByteStoreResult: the last byte of memory; an immediate. -/
theorem witness_byte_operand :
    operandAt (at20 0xFFFF#20) State.reset 0xFFFF#24 = true ∧ (0xFFFF#24 : Word).toNat ≤ 0xFFFF ∧
      addressingMode (value12 0xFFF#12) = .immediate := by decide

/-- JumpResult: a target outside memory, direct and through a pointer word. -/
theorem witness_JumpResult :
    operandAt (at20 0xFFFFF#20) State.reset 0xFFFFF#24 = true ∧
      operandAt (via20 0x20#20) State.reset 0xFFFFFF#24 = true := by decide

/-- ConditionalJumpResult: SW at each side of each test. -/
theorem witness_ConditionalJumpResult :
    (∀ sw : Word, operandAt (at20 0x10#20) (State.reset.setSw sw) 0x10#24 = true) ∧
      (State.reset.setSw 0#24).regs.sw.toNat = 0 ∧ (State.reset.setSw 1#24).regs.sw.toNat ≠ 0 ∧
      0x800000 ≤ (State.reset.setSw 0x800000#24).regs.sw.toNat ∧
      (State.reset.setSw 0x7FFFFF#24).regs.sw.toNat < 0x800000 :=
  ⟨fun _ => rfl, rfl, by decide, by decide, by decide⟩

/-- ReturnFromSubroutineResult: byte_0 of RSUB; RSUB fetched, with L the sentinel. -/
theorem witness_ReturnFromSubroutineResult :
    let s := ready 0#24 [0x4F#8, 0x00#8, 0x00#8] id []
    (0x4F#8 : Byte) &&& 0xFC#8 = 0x4C#8 ∧ s.status.enabled = true ∧
      fetch s = .run (.rsub ⟨true, true, false, false, false, .disp12 0#12⟩) ∧ s.regs.l = 0xFFFFFF#24 := by decide

/-- ReturnFromSubroutineResult: the four-byte RSUB fetched, with L no boundary. -/
theorem witness_ReturnFromSubroutineResult_no_boundary :
    let s := ready 0#24 [0x4C#8, 0x10#8, 0x00#8, 0x00#8] (fun r => { r with l := 0x012345#24 }) []
    s.status.enabled = true ∧ fetch s = .run (.rsubE ⟨false, false, false, false, false, .addr20 0#20⟩) ∧
      s.regs.l ≠ 0xFFFFFF#24 ∧ boundaryAt s.bounds s.regs.l = none := by decide

/-- CompareRegistersResult and IncrementIndexResult: every integer register, X and PC among them, and no other field. -/
theorem witness_registerValue :
    registerValue State.reset.regs 0#4 = some 0#24 ∧ registerValue State.reset.regs 1#4 = some 0#24 ∧
      registerValue State.reset.regs 2#4 = some 0xFFFFFF#24 ∧ registerValue State.reset.regs 8#4 = some 0#24 ∧
      registerValue State.reset.regs 9#4 = some 0#24 ∧ registerValue State.reset.regs 6#4 = none ∧
      registerValue State.reset.regs 7#4 = none ∧ registerValue State.reset.regs 10#4 = none := by decide

/-- TestDeviceResult: a device that is available and one that is not. -/
theorem witness_TestDeviceResult :
    deviceAt (at20 0x30#20) (base (fresh [])) 0x30#24 0xF1#8 = true ∧ ((base (fresh [])).device 0xF1#8).avail = true ∧
      deviceAt (at20 0xFFFF#20) (base (fresh [])) 0xFFFF#24 0xFF#8 = true ∧
      ((base (fresh [])).device 0xFF#8).avail = false := by decide

/-- ReadDeviceResult: a byte at the cursor. -/
theorem witness_ReadDeviceResult :
    let d := (base (fresh [0x41#8])).device 0xF1#8
    deviceAt (at20 0x30#20) (base (fresh [0x41#8])) 0x30#24 0xF1#8 = true ∧
      d.avail = true ∧ d.used ≠ .write ∧ d.input[d.rpos]? = some 0x41#8 := by decide

/-- ReadDeviceResult: the end of the stream. -/
theorem witness_ReadDeviceResult_end :
    let s := base { fresh [0x41#8] with rpos := 1, used := .read }
    deviceAt (at20 0x30#20) s 0x30#24 0xF1#8 = true ∧ (s.device 0xF1#8).avail = true ∧ (s.device 0xF1#8).used ≠ .write ∧
      (s.device 0xF1#8).input.length ≤ (s.device 0xF1#8).rpos := by decide

theorem witness_WriteDeviceResult :
    deviceAt (at20 0x30#20) (base (fresh [])) 0x30#24 0xF1#8 = true ∧
      ((base (fresh [])).device 0xF1#8).avail = true ∧ ((base (fresh [])).device 0xF1#8).used ≠ .read := by decide

/-- UnknownMnemonicResult: one instruction of each format, and an opcode value without a mnemonic. -/
theorem witness_UnknownMnemonicResult :
    (∀ i ∈ [Instr.sio, .svc 0#4 0#4, .add (short 0#12), .sskE (long 0#20), .noneFC (short 0#12)],
      i.wellFormed = true ∧ ∀ m ∈ implemented, i.mnemonic ≠ some m) := by decide

theorem witness_ImmediateWhereAddressIsNeeded : addressingMode (value12 0#12) = .immediate := by decide

theorem witness_IllegalRegisterFault :
    (7#4 : RegField).toNat = 7 ∧ 10 ≤ (10#4 : RegField).toNat ∧ 10 ≤ (15#4 : RegField).toNat ∧ (6#4 : RegField).toNat = 6 ∧
      registerValue State.reset.regs 9#4 = some 0#24 := by decide

theorem witness_PointerFault :
    addressingMode (via20 0xFFFE#20) = .indirect ∧ 0xFFFF < (operandEa (via20 0xFFFE#20) State.reset).toNat + 2 := by decide

theorem witness_OperandFault :
    operandAt (at20 0xFFFE#20) State.reset 0xFFFE#24 = true ∧ 0xFFFF < (0xFFFE#24 : Word).toNat + 2 ∧
      operandAt (at20 0x10000#20) State.reset 0x10000#24 = true ∧ 0xFFFF < (0x10000#24 : Word).toNat := by decide

theorem witness_DeviceFaults :
    (∀ u : DeviceUse, ∀ avail : Bool,
      deviceAt (at20 0x30#20) (base { fresh [] with avail := avail, used := u }) 0x30#24 0xF1#8 = true ∧
        ((base { fresh [] with avail := avail, used := u }).device 0xF1#8).avail = avail ∧
        ((base { fresh [] with avail := avail, used := u }).device 0xF1#8).used = u) := by
  intro u avail; cases u <;> cases avail <;> decide

theorem witness_FaultingInstructionWritesNothing :
    State.reset.status.enabled = true ∧ (State.reset.setStatus .running).status.enabled = true := by decide

/-- RegisterWriters: CLEAR changes each register, F included. -/
theorem witness_RegisterWriters :
    let s := State.reset.setRegs ⟨1#24, 1#24, 1#24, 1#24, 1#24, 1#24, 1#24, 1#24, 1#48⟩
    ∀ k ∈ [0#4, 1#4, 2#4, 3#4, 4#4, 5#4, 6#4, 8#4, 9#4],
      ∃ t, exec (.clear k 0#4) s = .next t ∧ t.regs ≠ s.regs := by
  intro s k h
  simp only [List.mem_cons, List.not_mem_nil, or_false] at h
  rcases h with rfl | rfl | rfl | rfl | rfl | rfl | rfl | rfl | rfl <;> exact ⟨_, rfl, by decide⟩

theorem witness_MemoryAndDeviceWriters :
    (∃ t, exec (.rd (at20 0x30#20)) (base (fresh [])) = .next t) ∧
      (Instr.rd (at20 0x30#20)).operands = .mem (at20 0x30#20) ∧
      deviceAt (at20 0x30#20) (base (fresh [])) 0x30#24 0xF1#8 = true ∧ (0x05#8 : Byte) ≠ 0xF1#8 :=
  ⟨⟨_, rfl⟩, by decide⟩

/-- A state whose next step runs CLEAR X, for the statements about a step. -/
def clearNext : State := ready 0x100#24 [0xB4#8, 0x10#8] id []

/-- What a step from it reaches. -/
theorem witness_step : ∃ t, step clearNext = .next t ∧ t.status = .running ∧ t.regs.pc = 0x102#24 := ⟨_, rfl, rfl, rfl⟩

theorem witness_StatusWordStaysACode : swOk clearNext.regs.sw ∧ ∃ t, step clearNext = .next t := ⟨.inr (.inl rfl), _, rfl⟩

theorem witness_StepRunsTheDecodedInstruction :
    clearNext.status.enabled = true ∧
      ∃ r, boundaryAt clearNext.bounds clearNext.regs.pc = some r ∧
        clearNext.mem.readBytes clearNext.regs.pc.toNat r.length = r.rawBytes ∧
        decode r.rawBytes = .ok (.clear 1#4 0#4, []) := ⟨rfl, _, rfl, rfl, rfl⟩

/-- ProgramCounterAdvancesByFormat: one instruction of each format, and a conditional jump not taken. -/
theorem witness_ProgramCounterAdvancesByFormat :
    (∀ bytes ∈ [[0xC0#8], [0xB4#8, 0x10#8], [0x01#8, 0x00#8, 0x05#8], [0x0F#8, 0x10#8, 0x40#8, 0x00#8]],
      ∃ i t, fetch (ready 0x100#24 bytes id []) = .run i ∧ step (ready 0x100#24 bytes id []) = .next t ∧
        transfersControl i (ready 0x100#24 bytes id []) = false) ∧
      transfersControl (.jlt (short 0#12)) (State.reset.setSw 1#24) = false := by
  refine ⟨fun bytes h => ?_, by decide⟩
  simp only [List.mem_cons, List.not_mem_nil, or_false] at h
  rcases h with rfl | rfl | rfl | rfl <;> exact ⟨_, _, rfl, rfl, rfl⟩

theorem witness_FaultsBeforeDispatch :
    State.reset.status.enabled = true ∧ (∀ r ∈ State.reset.bounds, r.address ≠ State.reset.regs.pc) ∧
      ∃ r, boundaryAt (clearNext.setMem []).bounds (clearNext.setMem []).regs.pc = some r ∧ 1 < r.length ∧
        r.rawBytes[1]? ≠ some ((clearNext.setMem []).mem.read ((clearNext.setMem []).regs.pc.toNat + 1)) :=
  ⟨rfl, by decide, _, rfl, by decide, by decide⟩

theorem witness_HaltedIsTerminal :
    Succeeded (State.reset.setStatus .haltedOk) ∧ Faulted (State.reset.raise (.stepLimitExceeded 0)) := ⟨rfl, _, rfl⟩

/-- HaltedOkExactlyAtTheSentinel and StepsAreCounted: a step that runs, one that halts, one that fetches nothing. -/
theorem witness_step_ends :
    (∃ i t, fetch clearNext = .run i ∧ step clearNext = .next t ∧ ¬ t.status = .haltedOk) ∧
      (∃ t, step (ready 0#24 [0x4F#8, 0x00#8, 0x00#8] id []) = .next t ∧ t.status = .haltedOk) ∧
      (∃ t, step State.reset = .next t ∧ ∀ i, fetch State.reset ≠ .run i) :=
  ⟨⟨_, _, rfl, rfl, by decide⟩, ⟨_, rfl, rfl⟩, _, rfl, fun _ h => by cases h⟩

/-- DeviceCursorsOnlyAdvance: an RD that returns a byte. -/
theorem witness_DeviceCursorsOnlyAdvance :
    let s := readyWith (fresh [0x41#8]) 0#24 [0xDB#8, 0x20#8, 0x00#8] id [(3, 0xF1#8)]
    ∃ t d, step s = .next t ∧ fetch s = .run (.rd d) ∧ deviceAt d (dispatched s (.rd d)) 3#24 0xF1#8 = true ∧ ¬ Faulted t ∧
      (s.device 0xF1#8).input[(s.device 0xF1#8).rpos]? = some 0x41#8 :=
  ⟨_, short 0#12, rfl, rfl, rfl, (by rintro ⟨_, h⟩; cases h), rfl⟩

/-- The invariant holds of a state with a program, a device in use and a step enabled (StepKeepsInvariant, EnabledStateSteps,
RunToHaltTerminates, with a limit of 5 and fuel of 6). -/
theorem witness_Inv :
    let s := (clearNext.setDevice 0xF1#8 { fresh [0x41#8] with rpos := 1, used := .read })
    Inv s ∧ s.status.enabled = true ∧ (∃ t, step s = .next t) ∧ s.steps ≤ 5 ∧ 5 - s.steps < 6 := by
  refine ⟨⟨rfl, rfl, fun id => ?_, ⟨rfl, rfl, by decide, by decide, by decide, trivial⟩, fun _ => by decide⟩, rfl, ⟨_, rfl⟩,
    by decide, by decide⟩
  rw [State.device_setDevice]
  split
  · exact ⟨by decide, by decide, by decide, by decide⟩
  · exact ⟨Nat.le_refl 0, fun _ => rfl, fun _ => rfl, fun _ => rfl⟩

/-- Reset and a launch at the sentinel, for the statements about them. -/
def sentinelLaunch : Launch :=
  { image := [(0, 0x4F#8), (0x10000, 0x00#8)], extent := 1, pc0 := 0xFFFFFF#24, initRegs := State.reset.regs,
    devices := [(0xF1#8, [0x41#8])] }

/-- BoundaryListIsFixed and DeviceHistoryGrows: a run of one step from a launch. -/
theorem witness_Reaches :
    let p : Launch := { sentinelLaunch with image := [(0, 0xB4#8), (1, 0x10#8)], extent := 2, pc0 := 0#24 }
    ∃ t, Reaches (State.launch p) t ∧ t.steps = 1 := ⟨_, .step .here rfl, rfl⟩

/-- BoundaryScanIsSound: a scan that records two instructions. -/
theorem witness_BoundaryScanIsSound : (boundaryScan (image [0x4F#8, 0x00#8, 0x00#8, 0xC0#8]) 4).length = 2 := by decide

/-- LaunchValues: a byte the load wrote last, one it did not write, a device it mapped and one it did not. -/
theorem witness_LaunchValues :
    sentinelLaunch.image = [] ++ (0, 0x4F#8) :: [(0x10000, 0x00#8)] ∧ (∀ c ∈ [((0x10000 : Nat), (0x00#8 : Byte))], c.1 ≠ 0) ∧
      (∀ c ∈ sentinelLaunch.image, c.1 ≠ 1) ∧ sentinelLaunch.devices = [] ++ (0xF1#8, [0x41#8]) :: [] ∧
      (∀ c ∈ sentinelLaunch.devices, c.1 ≠ 0x05#8) ∧ (State.launch sentinelLaunch).status = .haltedOk := by decide

/-- RunToHaltTerminates: a run of one step that stands at a limit of 1, not halted. -/
theorem witness_RunToHaltTerminates_limit :
    ∃ w, Trace clearNext [stepResult clearNext w] w ∧ w.status.enabled = true ∧ w.steps = 1 :=
  ⟨_, .step rfl (.here _), rfl, rfl⟩

/-- RunToHaltFollowsTheRule: a call that ends by halting, and one that ends at its limit. -/
theorem witness_RunToHaltFollowsTheRule :
    (∃ results u, runToHalt 9 2 (ready 0#24 [0x4F#8, 0x00#8, 0x00#8] id []) = .ended results u) ∧
      (∃ u, runToHalt 0 1 clearNext = .ended [] u) ∧ ∃ u, RunsToHalt 0 clearNext [] u :=
  ⟨⟨_, _, rfl⟩, ⟨_, rfl⟩, _, .limit rfl rfl⟩

/-- DecoderBlockOutputs: one byte sequence of each format, and a decoded operand. -/
theorem witness_DecoderBlockOutputs :
    (formatOf 0xC3#8 0#8).length ≤ 1 ∧ (formatOf 0x03#8 0x1F#8).length ≤ [0x1F#8, 0xFF#8, 0xFF#8].length + 1 ∧
      (∀ bytes ∈ [([0xC3#8], Format.one), ([0xB4#8, 0xFF#8], .two), ([0x03#8, 0x2F#8, 0xFF#8], .three),
          ([0x03#8, 0x1F#8, 0xFF#8, 0xFF#8], .four)],
        ∃ sig, decoderBlock .field 0#24 bytes.1 0#24 0#24 = .ok sig ∧ sig.fmt = bytes.2) ∧
      ∃ i, decode [0x03#8, 0x1F#8, 0xFF#8, 0xFF#8] = .ok (i, []) ∧ i.operands = .mem (long 0xFFFFF#20) := by
  refine ⟨by decide, by decide, fun bytes h => ?_, _, rfl, rfl⟩
  simp only [List.mem_cons, List.not_mem_nil, or_false] at h
  rcases h with rfl | rfl | rfl | rfl <;> exact ⟨_, rfl, rfl⟩

/-- BoundaryScanIsComplete: address 0, which no record covers, holds an instruction that fits. -/
theorem witness_BoundaryScanIsComplete :
    let m := image [0xC0#8]
    (0 : Nat) < 1 ∧ m.read 0 ≠ 0xFF#8 ∧
      (∀ r ∈ boundaryScan m 1, ¬(r.address.toNat < 0 ∧ 0 < r.address.toNat + r.length)) ∧
      0 + (formatOf (m.read 0) (m.read 1)).length ≤ 0x10000 := by decide

/-- BoundaryScanIsComplete: RD at 0xFFFE, after fill bytes alone, does not fit, and the scan stops there. -/
theorem witness_BoundaryScanIsComplete_stop :
    let m := Memory.write [] 0xFFFE 0xDB#8
    0xFFFE < 0x10000 ∧ m.read 0xFFFE ≠ 0xFF#8 ∧
      (∀ r ∈ boundaryScan m 0x10000, ¬(r.address.toNat < 0xFFFE ∧ 0xFFFE < r.address.toNat + r.length)) ∧
      ¬ 0xFFFE + (formatOf (m.read 0xFFFE) (m.read 0xFFFF)).length ≤ 0x10000 := by
  intro m
  have skipped : boundaryScan m 0x10000 = scanFrom m 0x10000 2 (0 + 0xFFFE) :=
    scanFrom_skips_fill (fuel := 2) 0xFFFE 0 (by decide) fun k lt =>
      (Memory.read_write_other [] _ (by omega)).trans (Memory.read_nil _)
  have stopped : scanFrom m 0x10000 2 (0 + 0xFFFE) = [] := scanFrom_stop (by decide) (by decide)
  exact ⟨by decide, by decide, by simp [skipped, stopped], by decide⟩

/-- StepResultReports: a SIMPLE, an INDIRECT, an IMMEDIATE operand, a pointer outside memory, RSUB, format 2, and no boundary. -/
theorem witness_StepResultReports :
    (∀ case ∈ [([0x1B#8, 0x00#8, 0x10#8], AddressingMode.simple), ([0x02#8, 0x00#8, 0x10#8], .indirect),
        ([0x01#8, 0x00#8, 0x10#8], .immediate), ([0x02#8, 0x1F#8, 0xFF#8, 0xFF#8], .indirect)],
      ∃ i d t, fetch (ready 0x100#24 case.1 id []) = .run i ∧ i.operands = .mem d ∧ addressingMode d = case.2 ∧
        step (ready 0x100#24 case.1 id []) = .next t ∧ i.mnemonic ≠ some .rsub) ∧
      (∃ i t, fetch clearNext = .run i ∧ i.format = .two ∧ step clearNext = .next t) ∧
      (∃ i, fetch (ready 0#24 [0x4F#8, 0x00#8, 0x00#8] id []) = .run i ∧ i.mnemonic = some .rsub) ∧
      (∀ r ∈ State.reset.bounds, r.address ≠ State.reset.regs.pc) ∧ ∀ i, fetch State.reset ≠ .run i := by
  refine ⟨fun case h => ?_, ⟨_, _, rfl, rfl, rfl⟩, ⟨_, rfl, rfl⟩, by decide, fun _ h => by cases h⟩
  simp only [List.mem_cons, List.not_mem_nil, or_false] at h
  rcases h with rfl | rfl | rfl | rfl <;> exact ⟨_, _, _, rfl, rfl, rfl, rfl, by decide⟩

end Sys2Proof.Tests
end

section
/-!
PROOFS. What COMP does with its operand (O18): the address an operand names is the one the resolution functions use, and the
comparison the machine encodes is the signed one.
-/

namespace Sys2Proof.Machine

/-- A word that lies in memory is read (R55). -/
theorem memReadWord_ok {s : State} {a : Word} (inside : a.toNat + 2 ≤ 0xFFFF) :
    memReadWord s a = .ok (s.mem.readWord a.toNat) := by
  have fits : inMemory a 3 = true := (inMemory_iff a 3).mpr (by rw [Config.memSize]; omega)
  simp [memReadWord, fits]

theorem exec_comp (d : MemOperand) (s : State) : exec (.comp d) s = compareA d s := rfl

theorem exec_compE (d : MemOperand) (s : State) : exec (.compE d) s = compareA d s := rfl

end Sys2Proof.Machine

namespace Sys2Proof.Claims

open Sys2Proof.Machine

/-! ## The operand address -/

/-- An immediate operand has no operand address (R86, R88). -/
theorem not_immediate_of_operandAt {d : MemOperand} {s : State} {a : Word} (named : operandAt d s a = true) :
    addressingMode d ≠ .immediate := by
  intro immediate
  simp [operandAt, immediate] at named

/-- The operand address is what `OpAddr` answers (R88). -/
theorem opAddr_of_operandAt {d : MemOperand} {s : State} {a : Word} (named : operandAt d s a = true) :
    opAddr d s = .ok a := by
  rcases addressingMode_cases d with simple | immediate | indirect
  · have direct : a = operandEa d s := by simpa [operandAt, simple] using named
    rw [opAddr_simple simple, direct]
  · exact absurd immediate (not_immediate_of_operandAt named)
  · obtain ⟨inside, pointed⟩ :
        (operandEa d s).toNat + 2 ≤ 0xFFFF ∧ a = s.mem.readWord (operandEa d s).toNat := by
      simpa [operandAt, indirect] using named
    rw [opAddr_indirect indirect, memReadWord_ok inside, pointed]

/-- The word operand is the word at the operand address (R88). -/
theorem wordOperand_of_operandAt {d : MemOperand} {s : State} {a : Word} (named : operandAt d s a = true)
    (inside : a.toNat + 2 ≤ 0xFFFF) : wordOperand d s = .ok (s.mem.readWord a.toNat) := by
  rw [wordOperand_memory (not_immediate_of_operandAt named), opAddr_of_operandAt named]
  exact memReadWord_ok inside

/-! ## Comparison -/

/-- The machine's encoded comparison is the signed comparison of R9 and R30. -/
theorem swEnc_cmp24 (v w : Word) : swEnc (cmp24 v w) = comparisonCode v w := by
  rcases lt_trichotomy v.toInt w.toInt with less | equal | greater
  · simp [cmp24, compare_lt_iff_lt.mpr less, swEnc, comparisonCode, less]
  · simp [cmp24, equal, swEnc, comparisonCode]
  · simp [cmp24, compare_gt_iff_gt.mpr greater, swEnc, comparisonCode, greater.not_gt, greater.ne']

/-- COMP whose operand resolves to `v` sets SW to the comparison of A with `v`, and changes nothing else (R140). -/
theorem compareA_of_wordOperand {d : MemOperand} {s : State} {v : Word} (operand : wordOperand d s = .ok v) :
    compareA d s = .next { s with regs := { s.regs with sw := comparisonCode s.regs.a v } } := by
  rw [compareA, operand, ← swEnc_cmp24]
  rfl

/-- Settles O18: both formats are `compareA`, whose operand is the word at the operand address or the immediate value. -/
theorem compareResult : Obligations.CompareResult := by
  intro d s
  simp only [exec_comp, exec_compE, and_self]
  constructor
  · intro a named inside
    exact compareA_of_wordOperand (wordOperand_of_operandAt named inside)
  · intro immediate
    exact compareA_of_wordOperand (wordOperand_immediate immediate)

end Sys2Proof.Claims
end

section
/-!
PROOFS. The step at a boundary (O39): the fetch gives the decoded instruction, and the step executes and retires it.
-/

namespace Sys2Proof.Machine

/-- An enabled step that fetches an instruction executes and retires it (R276). -/
theorem step_of_fetch_run {s : State} {i : Instr} (enabled : s.status.enabled = true) (found : fetch s = .run i) :
    step s = retire (exec i (dispatched s i)) := by
  simp [step, enabled, found]

/-- The fetch at a boundary whose recorded bytes memory holds gives the instruction they decode to (R276, R277). -/
theorem fetch_run_of_boundaryAt {s : State} {r : DecodedInstruction} {i : Instr} {rest : List Byte}
    (found : boundaryAt s.bounds s.regs.pc = some r)
    (hold : s.mem.readBytes s.regs.pc.toNat r.length = r.rawBytes)
    (decoded : decode r.rawBytes = .ok (i, rest)) : fetch s = .run i := by
  obtain ⟨-, address⟩ := boundaryAt_some found
  have unchanged : recordedBytesHold s.mem r = true := by simp [recordedBytesHold, address, hold]
  exact (fetch_run_iff s i).mpr ⟨r, rest, found, unchanged, decoded⟩

/-- The state Execute sees, written out: PC advanced, the status Running (R34, R276). -/
theorem dispatched_eq (s : State) (i : Instr) :
    dispatched s i =
      { s with regs := { s.regs with pc := s.regs.pc + BitVec.ofNat 24 i.length }, status := .running } := rfl

/-- The end of a step, written out: one step more, and Halted(ok) at the sentinel unless a fault was taken (R275, R276). -/
theorem sentinelHalt_countStep (t : State) :
    sentinelHalt t.countStep =
      { t with
        steps := t.steps + 1
        status := if t.status = .running ∧ t.regs.pc = 0xFFFFFF#24 then .haltedOk else t.status } := by
  rcases sentinelHalt_cases t.countStep with ⟨running, atSentinel, halts⟩ | ⟨continues, same⟩
  · rw [halts, if_pos ⟨running, atSentinel⟩]
    rfl
  · have notAtSentinel : ¬(t.status = .running ∧ t.regs.pc = 0xFFFFFF#24) := continues
    rw [same, if_neg notAtSentinel]
    rfl

/-- Settles O39: the fetch gives `i`, and the step's end is read off for each outcome of its execution. -/
theorem stepRunsTheDecodedInstruction : Obligations.StepRunsTheDecodedInstruction := by
  intro s r i rest enabled found hold decoded
  rw [step_of_fetch_run enabled (fetch_run_of_boundaryAt found hold decoded), ← dispatched_eq]
  cases exec i (dispatched s i) with
  | next t => rw [retire_next, sentinelHalt_countStep]
  | fault e => rfl
  | refused e => rfl

end Sys2Proof.Machine
end

section
/-!
PROOFS. The part of the state an instruction touches, said once, and the invariant under a step (O46), with the frame facts that
follow from the same lemma: who writes memory and devices (O36) and what is counted (O44).
-/

namespace Sys2Proof.Machine

open Sys2Proof.Safety

/-- A byte write that completes replaces memory alone (R55). -/
theorem memWriteByte_ok {s t : State} {a : Word} {v : Byte} (h : memWriteByte s a v = .ok t) :
    t = s.setMem (s.mem.write a.toNat v) := by
  rcases memWriteByte_cases s a v with ⟨-, eq⟩ | ⟨-, eq⟩
  · rw [eq] at h; exact (Except.ok.inj h).symm
  · rw [eq] at h; cases h

/-- A word write that completes replaces memory alone (R55). -/
theorem memWriteWord_ok {s t : State} {a v : Word} (h : memWriteWord s a v = .ok t) :
    t = s.setMem (s.mem.writeBytes a.toNat (wordBytes v)) := by
  rcases memWriteWord_cases s a v with ⟨-, eq⟩ | ⟨-, eq⟩
  · rw [eq] at h; exact (Except.ok.inj h).symm
  · rw [eq] at h; cases h

/-! ## One part of the state -/

/-- The device instruction `i` replaced the record of the one device its operand names, by one the rules allow, and wrote
registers beside it. -/
structure TouchesDevice (i : Instr) (s t : State) (m : Mnemonic) (d : MemOperand) (id : Byte) (record : Device) (r : Regs) :
    Prop where
  name : i.mnemonic = some m
  listed : m ∈ [Mnemonic.td, .rd, .wd]
  operand : i.operands = .mem d
  device : deviceId m d s = .ok id
  keeps : deviceOk (s.device id) → deviceOk record
  eq : t = (s.setDevice id record).setRegs r

/-- What an executed instruction touches: the status alone, the registers alone, memory alone, or one device and registers. -/
inductive Touches (i : Instr) (s t : State) : Prop where
  | fault (e : Exception) (eq : t = s.raise e)
  | regs (r : Regs) (eq : t = s.setRegs r)
  | mem (m : Memory) (name : i.mnemonic ∈ [some .sta, some .stl, some .stx, some .stch])
      (keeps : s.mem.wf = true → m.wf = true) (eq : t = s.setMem m)
  | device (m : Mnemonic) (d : MemOperand) (id : Byte) (record : Device) (r : Regs)
      (touched : TouchesDevice i s t m d id record r)

theorem storeWord_touches {i : Instr} {s t : State} {a v : Word}
    (name : i.mnemonic = some .sta ∨ i.mnemonic = some .stl ∨ i.mnemonic = some .stx) (wrote : memWriteWord s a v = .ok t) :
    Touches i s t := by
  have eq := memWriteWord_ok wrote
  refine .mem _ ?_ (fun wf => ?_) eq
  · rcases name with name | name | name <;> simp [name]
  · simpa [eq] using memWriteWord_wf wrote wf

theorem storeByte_touches {i : Instr} {s t : State} {a : Word} {v : Byte} (name : i.mnemonic = some .stch)
    (wrote : memWriteByte s a v = .ok t) : Touches i s t := by
  have eq := memWriteByte_ok wrote
  refine .mem _ (by simp [name]) (fun wf => ?_) eq
  simpa [eq] using memWriteByte_wf wrote wf

/-- Counting a readiness draw changes nothing the rules speak of (R168). -/
theorem deviceOk_poll {d : Device} (n : Nat) (ok : deviceOk d) : deviceOk { d with polls := n } := ok

/-- A read that returned a byte leaves the cursor inside the input (R161, R165). -/
theorem deviceOk_read {d : Device} (available : d.avail = true) (notWritten : d.used ≠ .write)
    (inside : d.rpos < d.input.length) (ok : deviceOk d) : deviceOk { d with rpos := d.rpos + 1, used := .read } := by
  obtain ⟨-, -, unwritten, -⟩ := ok
  exact ⟨inside, by simp, fun _ => unwritten notWritten, by simp [available]⟩

/-- A read at the end of the stream leaves the cursor (R161). -/
theorem deviceOk_readEnd {d : Device} (available : d.avail = true) (notWritten : d.used ≠ .write) (ok : deviceOk d) :
    deviceOk { d with used := .read } := by
  obtain ⟨cursor, -, unwritten, -⟩ := ok
  exact ⟨cursor, by simp, fun _ => unwritten notWritten, by simp [available]⟩

/-- A device that is written has not been read, so its cursor stands at 0 (R162, R167). -/
theorem deviceOk_write {d : Device} (out : List Byte) (available : d.avail = true) (notRead : d.used ≠ .read)
    (ok : deviceOk d) : deviceOk { d with out := out, used := .write } := by
  obtain ⟨cursor, unread, -, -⟩ := ok
  exact ⟨cursor, fun _ => unread notRead, by simp, by simp [available]⟩

theorem test_touches {i : Instr} {s : State} {d : MemOperand} {id : Byte} (name : i.mnemonic = some .td)
    (operand : i.operands = .mem d) (device : deviceId .td d s = .ok id) : Touches i s (devProbe s id) := by
  rcases devProbe_cases s id with ⟨-, eq⟩ | ⟨-, eq⟩
  · exact .regs _ eq
  · exact .device .td d id _ _ { name, listed := by simp, operand, device, keeps := deviceOk_poll _, eq }

theorem read_touches {i : Instr} {s t : State} {d : MemOperand} {id : Byte} (name : i.mnemonic = some .rd)
    (operand : i.operands = .mem d) (device : deviceId .rd d s = .ok id) (did : devRead s id = .ok t) : Touches i s t := by
  obtain ⟨available, notWritten, ⟨v, atCursor, eq⟩ | ⟨-, eq⟩⟩ := devRead_ok did
  · have inside : (s.device id).rpos < (s.device id).input.length := (List.getElem?_eq_some_iff.mp atCursor).1
    exact .device .rd d id _ _
      { name, listed := by simp, operand, device, keeps := deviceOk_read available notWritten inside, eq }
  · exact .device .rd d id _ _
      { name, listed := by simp, operand, device, keeps := deviceOk_readEnd available notWritten, eq }

theorem write_touches {i : Instr} {s t : State} {d : MemOperand} {id v : Byte} (name : i.mnemonic = some .wd)
    (operand : i.operands = .mem d) (device : deviceId .wd d s = .ok id) (did : devWrite s id v = .ok t) :
    Touches i s t := by
  obtain ⟨available, notRead, eq⟩ := devWrite_ok did
  exact .device .wd d id _ s.regs
    { name, listed := by simp, operand, device, keeps := deviceOk_write _ available notRead, eq }

/-- Every instruction touches one part of the state. -/
theorem exec_touches {i : Instr} {s t : State} (h : exec i s = .next t) : Touches i s t := by
  rcases exec_cases h with ⟨e, eq⟩ | effect
  · exact .fault e eq
  cases effect with
  | clear r1 r2 n instr named eq => exact .regs _ eq
  | compr r1 r2 v1 v2 instr eq => exact .regs _ eq
  | tixr r1 r2 v instr eq => exact .regs _ eq
  | loadA v name eq => exact .regs _ eq
  | loadT v name eq => exact .regs _ eq
  | storeWord a v name wrote => exact storeWord_touches name wrote
  | storeByte a v name wrote => exact storeByte_touches name wrote
  | compare v w name eq => exact .regs _ eq
  | jump v name eq => exact .regs _ eq
  | stay name eq => exact .regs s.regs eq
  | link v name eq => exact .regs _ eq
  | ret name eq => exact .regs _ eq
  | test d id name operand device eq => exact eq ▸ test_touches name operand device
  | read d id name operand device did => exact read_touches name operand device did
  | write d id v name operand device did => exact write_touches name operand device did

/-! ## What that leaves unchanged -/

/-- No instruction changes the boundary list (R40) or the step count, which the controller raises (R42); the status stays, or a
fault is taken (R244). -/
theorem exec_frame {i : Instr} {s t : State} (h : exec i s = .next t) :
    t.bounds = s.bounds ∧ t.steps = s.steps ∧ (t.status = s.status ∨ ∃ e, t.status = .haltedErr e) := by
  cases exec_touches h with
  | fault e eq => rw [eq]; exact ⟨rfl, rfl, .inr ⟨e, rfl⟩⟩
  | regs r eq => rw [eq]; exact ⟨rfl, rfl, .inl rfl⟩
  | mem m name keeps eq => rw [eq]; exact ⟨rfl, rfl, .inl rfl⟩
  | device m d id record r touched => rw [touched.eq]; exact ⟨rfl, rfl, .inl rfl⟩

end Sys2Proof.Machine

namespace Sys2Proof.Safety

open Sys2Proof.Machine

/-! ## The invariant -/

/-- The invariant but for its last clause: what it says of memory, the devices and the boundary list. Between the dispatch and
the sentinel test of a step the last clause need not hold (R276). -/
structure DataOk (s : State) : Prop where
  memory : s.mem.wf = true
  devices : s.dev.wf = true
  device : ∀ id, deviceOk (s.device id)
  bounds : boundsOk s.bounds

theorem inv_iff (s : State) : Inv s ↔ DataOk s ∧ (s.status.enabled = true → s.regs.pc ≠ Config.haltPc) := by
  constructor
  · rintro ⟨memory, devices, device, bounds, sentinel⟩
    exact ⟨⟨memory, devices, device, bounds⟩, sentinel⟩
  · rintro ⟨⟨memory, devices, device, bounds⟩, sentinel⟩
    exact ⟨memory, devices, device, bounds, sentinel⟩

/-- It looks at three parts of the state only. -/
theorem DataOk.congr {s t : State} (ok : DataOk s) (mem : t.mem = s.mem) (dev : t.dev = s.dev)
    (bounds : t.bounds = s.bounds) : DataOk t where
  memory := mem ▸ ok.memory
  devices := dev ▸ ok.devices
  device id := by simpa only [State.device, dev] using ok.device id
  bounds := bounds ▸ ok.bounds

theorem DataOk.setMem {s : State} {m : Memory} (ok : DataOk s) (wf : m.wf = true) : DataOk (s.setMem m) :=
  ⟨wf, ok.devices, ok.device, ok.bounds⟩

theorem DataOk.setDevice {s : State} {id : Byte} {record : Device} (ok : DataOk s) (good : deviceOk record) :
    DataOk (s.setDevice id record) where
  memory := ok.memory
  devices := State.setDevice_wf s id record ok.devices
  device other := by
    rw [State.device_setDevice]
    split
    · exact good
    · exact ok.device other
  bounds := ok.bounds

/-- Every instruction keeps memory, the devices and the boundary list good. -/
theorem DataOk.exec {i : Instr} {s t : State} (ok : DataOk s) (h : exec i s = .next t) : DataOk t := by
  cases exec_touches h with
  | fault e eq => rw [eq]; exact ok.congr rfl rfl rfl
  | regs r eq => rw [eq]; exact ok.congr rfl rfl rfl
  | mem m name keeps eq => rw [eq]; exact ok.setMem (keeps ok.memory)
  | device m d id record r touched =>
    rw [touched.eq]
    exact (ok.setDevice (touched.keeps (ok.device id))).congr rfl rfl rfl

/-- The sentinel test leaves no step enabled at the sentinel, of a machine that is not Loaded (R275). -/
theorem sentinelHalt_not_at_sentinel {u : State} (notLoaded : u.status ≠ .loaded)
    (enabled : (sentinelHalt u).status.enabled = true) : (sentinelHalt u).regs.pc ≠ Config.haltPc := by
  rcases sentinelHalt_cases u with ⟨-, -, halts⟩ | ⟨continues, same⟩
  · simp [halts] at enabled
  · rw [same] at enabled ⊢
    intro atSentinel
    cases status : u.status with
    | loaded => exact notLoaded status
    | running => exact continues ⟨status, atSentinel⟩
    | haltedOk => simp [status] at enabled
    | haltedErr e => simp [status] at enabled

/-- An instruction that was dispatched does not leave the machine Loaded (R274). -/
theorem exec_dispatched_not_loaded {i : Instr} {s u : State} (h : Machine.exec i (dispatched s i) = .next u) :
    u.status ≠ .loaded := by
  obtain ⟨-, -, same | ⟨e, faulted⟩⟩ := exec_frame h
  · simp [same]
  · simp [faulted]

/-- Settles O46: a fault before dispatch changes the status alone; an executed instruction keeps the data good, and the sentinel
test at the end of its step sees to the last clause. -/
theorem stepKeepsInvariant : Obligations.StepKeepsInvariant := by
  intro s t inv stepped
  obtain ⟨ok, -⟩ := (inv_iff s).mp inv
  refine (inv_iff t).mpr ?_
  obtain ⟨-, ⟨e, -, eq⟩ | ⟨i, u, -, executed, eq⟩⟩ := step_cases stepped
  · rw [eq]
    exact ⟨ok.congr rfl rfl rfl, by simp⟩
  · rw [eq]
    have dispatchedOk : DataOk (dispatched s i) := ok.congr rfl rfl rfl
    refine ⟨(dispatchedOk.exec executed).congr (by simp) (by simp) (by simp), ?_⟩
    have notLoaded : u.status ≠ .loaded := exec_dispatched_not_loaded executed
    exact sentinelHalt_not_at_sentinel (u := u.countStep) notLoaded

end Sys2Proof.Safety

namespace Sys2Proof.Claims

open Sys2Proof.Machine

/-- The operand of a device instruction names the device `DeviceId` answers (R88). -/
theorem deviceId_of_deviceAt {m : Mnemonic} {d : MemOperand} {s : State} {a : Word} {id : Byte}
    (named : deviceAt d s a id = true) : deviceId m d s = .ok id := by
  simp only [deviceAt, Bool.and_eq_true, decide_eq_true_eq, beq_iff_eq] at named
  obtain ⟨⟨address, inside⟩, eq⟩ := named
  have fits : inMemory a 1 = true := (inMemory_iff a 1).mpr (by rw [Config.memSize]; omega)
  rw [deviceId, addressOperand_memory (not_immediate_of_operandAt address), opAddr_of_operandAt address, eq]
  simp [Except.bind, memReadByte, fits]

/-- An instruction leaves every device alone but the one its operand names (R163). -/
theorem exec_device_other {i : Instr} {s t : State} {d : MemOperand} {a : Word} {id other : Byte}
    (h : exec i s = .next t) (operand : i.operands = .mem d) (named : deviceAt d s a id = true) (differs : other ≠ id) :
    t.device other = s.device other := by
  cases exec_touches h with
  | fault e eq => rw [eq]; rfl
  | regs r eq => rw [eq]; rfl
  | mem m name keeps eq => rw [eq]; rfl
  | device m d' id' record r touched =>
    have sameOperand : d' = d := Operands.mem.inj (touched.operand.symm.trans operand)
    have sameDevice : id' = id := by
      have found := touched.device
      rw [sameOperand, deviceId_of_deviceAt named] at found
      exact (Except.ok.inj found).symm
    rw [touched.eq]
    change (s.setDevice id' record).device other = s.device other
    rw [State.device_setDevice, if_neg (sameDevice ▸ differs)]

/-- Settles O36, by what each instruction touches. -/
theorem memoryAndDeviceWriters : Obligations.MemoryAndDeviceWriters := by
  intro i s t h
  obtain ⟨bounds, steps, -⟩ := exec_frame h
  refine ⟨fun noStore => ?_, fun noDevice => ?_, fun d a id operand named other differs =>
    exec_device_other h operand named differs, bounds, steps⟩
  · cases exec_touches h with
    | fault e eq => rw [eq]; rfl
    | regs r eq => rw [eq]; rfl
    | mem m name keeps eq => exact absurd name noStore
    | device m d id record r touched => rw [touched.eq]; rfl
  · cases exec_touches h with
    | fault e eq => rw [eq]; rfl
    | regs r eq => rw [eq]; rfl
    | mem m name keeps eq => rw [eq]; rfl
    | device m d id record r touched =>
      have listed := touched.listed
      rw [touched.name] at noDevice
      exact absurd listed (by simpa using noDevice)

/-- Settles O44: the controller counts at the end of a step that executed an instruction, and nothing else counts. -/
theorem stepsAreCounted : Obligations.StepsAreCounted := by
  intro s t stepped
  obtain ⟨-, ⟨e, found, eq⟩ | ⟨i, u, found, executed, eq⟩⟩ := step_cases stepped
  · refine ⟨fun ⟨i, run⟩ => ?_, fun _ => by rw [eq]; rfl⟩
    rw [found] at run; cases run
  · refine ⟨fun _ => ?_, fun none => absurd found (none i)⟩
    obtain ⟨-, steps, -⟩ := exec_frame executed
    rw [eq, sentinelHalt_steps, State.countStep_steps, steps, dispatched_steps]

end Sys2Proof.Claims
end

section
/-!
PROOFS. Which instructions write which register (O35), and what follows for SW (O38) and for PC (O40).
-/

namespace Sys2Proof.Machine

/-- The number of a register (R22). -/
def RegName.number : RegName → RegField
  | .a => 0#4
  | .x => 1#4
  | .l => 2#4
  | .b => 3#4
  | .s => 4#4
  | .t => 5#4
  | .f => 6#4
  | .pc => 8#4
  | .sw => 9#4

/-- A field that names a register is its number (R22). -/
theorem eq_number_of_regNamed {k : RegField} {n : RegName} (named : regNamed k = some n) : k = n.number := by
  have all : ∀ (k : RegField) (n : RegName), regNamed k = some n → k = n.number := by
    intro k n
    cases n <;> revert k <;> decide
  exact all k n named

end Sys2Proof.Machine

namespace Sys2Proof.Claims

open Sys2Proof.Machine Sys2Proof.Safety

/-! ## The registers an instruction may write -/

/-- The registers `r` became `r'` under the instruction `i` in none but the ways the rules name: the claim of O35, of registers. -/
def WritesAllowed (i : Instr) (r r' : Regs) : Prop :=
  (r'.a ≠ r.a → i.mnemonic ∈ [some .lda, some .ldch, some .rd] ∨ ∃ r2, i = .clear 0#4 r2) ∧
  (r'.x ≠ r.x → i.mnemonic = some .tixr ∨ ∃ r2, i = .clear 1#4 r2) ∧
  (r'.l ≠ r.l → i.mnemonic = some .jsub ∨ ∃ r2, i = .clear 2#4 r2) ∧
  (r'.b ≠ r.b → r'.b = 0#24 ∧ ∃ r2, i = .clear 3#4 r2) ∧
  (r'.s ≠ r.s → r'.s = 0#24 ∧ ∃ r2, i = .clear 4#4 r2) ∧
  (r'.t ≠ r.t → i.mnemonic = some .ldt ∨ ∃ r2, i = .clear 5#4 r2) ∧
  (r'.f ≠ r.f → r'.f = 0#48 ∧ ∃ r2, i = .clear 6#4 r2) ∧
  (r'.pc ≠ r.pc → i.mnemonic ∈ [some .j, some .jeq, some .jlt, some .jsub, some .rsub] ∨ ∃ r2, i = .clear 8#4 r2) ∧
  (r'.sw ≠ r.sw → i.mnemonic ∈ [some .comp, some .compr, some .tixr, some .td] ∨ ∃ r2, i = .clear 9#4 r2)

theorem writesAllowed_self (i : Instr) (r : Regs) : WritesAllowed i r r := by simp [WritesAllowed]

/-- CLEAR writes the register its first field names, with zero (R110). -/
theorem writesAllowed_clear {r1 r2 : RegField} {n : RegName} (r : Regs) (named : regNamed r1 = some n) :
    WritesAllowed (.clear r1 r2) r (r.put n 0#24) := by
  rw [eq_number_of_regNamed named]
  cases n <;> simp [WritesAllowed, Regs.put, RegName.number]

theorem writesAllowed_a {i : Instr} {r : Regs} {v : Word} (name : i.mnemonic ∈ [some .lda, some .ldch, some .rd]) :
    WritesAllowed i r { r with a := v } := by simp [WritesAllowed, name]

theorem writesAllowed_sw {i : Instr} {r : Regs} {v : Word}
    (name : i.mnemonic ∈ [some .comp, some .compr, some .tixr, some .td]) : WritesAllowed i r { r with sw := v } := by
  simp [WritesAllowed, name]

theorem writesAllowed_pc {i : Instr} {r : Regs} {v : Word}
    (name : i.mnemonic ∈ [some .j, some .jeq, some .jlt, some .jsub, some .rsub]) : WritesAllowed i r { r with pc := v } := by
  simp [WritesAllowed, name]

/-- Each effect writes the registers its mnemonic is named for. -/
theorem writesAllowed_of_effect {i : Instr} {s t : State} (effect : Effect i s t) : WritesAllowed i s.regs t.regs := by
  cases effect with
  | clear r1 r2 n instr named eq => rw [eq, instr]; exact writesAllowed_clear s.regs named
  | compr r1 r2 v1 v2 instr eq =>
    have name : i.mnemonic = some .compr := by rw [instr]; rfl
    rw [eq]; exact writesAllowed_sw (by simp [name])
  | tixr r1 r2 v instr eq =>
    have name : i.mnemonic = some .tixr := by rw [instr]; rfl
    rw [eq]; simp [WritesAllowed, name]
  | loadA v name eq => rw [eq]; exact writesAllowed_a (by rcases name with name | name <;> simp [name])
  | loadT v name eq => rw [eq]; simp [WritesAllowed, name]
  | storeWord a v name wrote => rw [memWriteWord_ok wrote]; exact writesAllowed_self i s.regs
  | storeByte a v name wrote => rw [memWriteByte_ok wrote]; exact writesAllowed_self i s.regs
  | compare v w name eq => rw [eq]; exact writesAllowed_sw (by simp [name])
  | jump v name eq => rw [eq]; exact writesAllowed_pc (by rcases name with name | name | name <;> simp [name])
  | stay name eq => rw [eq]; exact writesAllowed_self i s.regs
  | link v name eq => rw [eq]; simp [WritesAllowed, name]
  | ret name eq => rw [eq]; exact writesAllowed_pc (by simp [name])
  | test d id name operand device eq =>
    rw [eq]
    rcases devProbe_cases s id with ⟨-, probed⟩ | ⟨-, probed⟩ <;>
      · rw [probed]; exact writesAllowed_sw (by simp [name])
  | read d id name operand device did =>
    obtain ⟨-, -, ⟨v, -, eq⟩ | ⟨-, eq⟩⟩ := devRead_ok did <;>
      · rw [eq]; exact writesAllowed_a (by simp [name])
  | write d id v name operand device did =>
    obtain ⟨-, -, eq⟩ := devWrite_ok did
    rw [eq]; exact writesAllowed_self i s.regs

/-- Settles O35: a fault writes no register, and an effect those its mnemonic is named for. -/
theorem registerWriters : Obligations.RegisterWriters := by
  intro i s t h
  rcases exec_cases h with ⟨e, eq⟩ | effect
  · rw [eq]; exact writesAllowed_self i s.regs
  · exact writesAllowed_of_effect effect

/-! ## SW -/

theorem swOk_zero : swOk 0#24 := .inr (.inl rfl)

/-- A comparison's encoding is a code (R30). -/
theorem swOk_swEnc (o : Ordering) : swOk (swEnc o) := by
  cases o with
  | lt => exact .inl rfl
  | eq => exact .inr (.inl rfl)
  | gt => exact .inr (.inr rfl)

/-- The answer of TD is a code (R31, R160). -/
theorem swOk_devProbe (s : State) (id : Byte) : swOk (devProbe s id).regs.sw := by
  rcases devProbe_cases s id with ⟨-, eq⟩ | ⟨-, eq⟩
  · rw [eq]; exact swOk_zero
  · rw [eq, State.setSw_regs]
    cases Config.tdReady id (s.device id).polls with
    | true => exact .inr (.inr rfl)
    | false => exact swOk_zero

/-- The instructions that write SW write a code; the others leave it. -/
theorem swOk_exec {i : Instr} {s t : State} (ok : swOk s.regs.sw) (h : exec i s = .next t) : swOk t.regs.sw := by
  rcases exec_cases h with ⟨e, eq⟩ | effect
  · rw [eq]; exact ok
  cases effect with
  | clear r1 r2 n instr named eq =>
    rw [eq]
    cases n with
    | sw => exact swOk_zero
    | _ => exact ok
  | compr r1 r2 v1 v2 instr eq => rw [eq]; exact swOk_swEnc _
  | tixr r1 r2 v instr eq => rw [eq]; exact swOk_swEnc _
  | loadA v name eq => rw [eq]; exact ok
  | loadT v name eq => rw [eq]; exact ok
  | storeWord a v name wrote => rw [memWriteWord_ok wrote]; exact ok
  | storeByte a v name wrote => rw [memWriteByte_ok wrote]; exact ok
  | compare v w name eq => rw [eq]; exact swOk_swEnc _
  | jump v name eq => rw [eq]; exact ok
  | stay name eq => rw [eq]; exact ok
  | link v name eq => rw [eq]; exact ok
  | ret name eq => rw [eq]; exact ok
  | test d id name operand device eq => rw [eq]; exact swOk_devProbe s id
  | read d id name operand device did =>
    obtain ⟨-, -, ⟨v, -, eq⟩ | ⟨-, eq⟩⟩ := devRead_ok did <;>
      · rw [eq]; exact ok
  | write d id v name operand device did =>
    obtain ⟨-, -, eq⟩ := devWrite_ok did
    rw [eq]; exact ok

/-- Settles O38: the controller leaves SW alone, and `exec` keeps it a code. -/
theorem statusWordStaysACode : Obligations.StatusWordStaysACode := by
  intro s t ok stepped
  obtain ⟨-, ⟨e, -, eq⟩ | ⟨i, u, -, executed, eq⟩⟩ := step_cases stepped
  · rw [eq]; exact ok
  · have dispatchedOk : swOk (dispatched s i).regs.sw := ok
    have executedOk : swOk u.regs.sw := swOk_exec dispatchedOk executed
    rw [eq, sentinelHalt_regs]
    exact executedOk

/-! ## PC -/

/-- A conditional jump that is not taken leaves PC (R142, R143). -/
theorem jumpIf_not_taken_pc {taken : Bool} {m : Mnemonic} {d : MemOperand} {s t : State} (h : jumpIf taken m d s = .next t)
    (quiet : taken = false) : t.regs.pc = s.regs.pc := by
  rw [quiet] at h
  rcases complete_map_cases h with ⟨v, -, eq⟩ | ⟨e, -, eq⟩
  · rw [eq]; rfl
  · rw [eq]; rfl

/-- The opcodes of the mnemonics that write PC (R93). -/
theorem opcode_of_jump {op : Byte} (name : Mnemonic.ofOpcode op ∈ [some .j, some .jeq, some .jlt, some .jsub, some .rsub]) :
    op ∈ [0x3C#8, 0x30#8, 0x38#8, 0x48#8, 0x4C#8] := by
  revert op; decide

/-- An instruction that transfers no control leaves PC. -/
theorem pc_of_not_transfersControl {i : Instr} {s t : State} (h : exec i s = .next t)
    (quiet : transfersControl i s = false) : t.regs.pc = s.regs.pc := by
  by_contra changed
  obtain ⟨-, -, -, -, -, -, -, pc, -⟩ := registerWriters i s t h
  rcases pc changed with name | ⟨r2, instr⟩
  · cases i with
    | jeq d | jeqE d => exact changed (jumpIf_not_taken_pc h quiet)
    | jlt d | jltE d => exact changed (jumpIf_not_taken_pc h quiet)
    | j d | jE d | jsub d | jsubE d | rsub d | rsubE d => cases quiet
    | _ => exact absurd (opcode_of_jump name) (by simp [Instr.opcode])
  · rw [instr] at quiet; cases quiet

/-- Settles O40: the dispatch advances PC by the length, and an instruction that transfers no control leaves it. -/
theorem programCounterAdvancesByFormat : Obligations.ProgramCounterAdvancesByFormat := by
  intro s t i found stepped quiet
  obtain ⟨-, ⟨e, stopped, -⟩ | ⟨j, u, found', executed, eq⟩⟩ := step_cases stepped
  · rw [found] at stopped; cases stopped
  · obtain rfl : i = j := Fetched.run.inj (found.symm.trans found')
    have quiet' : transfersControl i (dispatched s i) = false := quiet
    rw [eq, sentinelHalt_regs, State.countStep_regs, pc_of_not_transfersControl executed quiet']
    change s.regs.pc + BitVec.ofNat 24 i.format.length = _
    cases i.format <;> rfl

end Sys2Proof.Claims
end

section
/-!
PROOFS. The canonical form of sparse data determines it (O13).
-/

namespace Sys2Proof.Machine

/-- A canonical list takes its head apart: the key, the value and the rest. -/
theorem Sparse.wfFrom_cons {α : Type} [DecidableEq α] {default : α} {bound low k : Nat} {v : α} {rest : List (Nat × α)} :
    Sparse.wfFrom default bound low ((k, v) :: rest) = true ↔
      low ≤ k ∧ k < bound ∧ v ≠ default ∧ Sparse.wfFrom default bound (k + 1) rest = true := by
  simp [Sparse.wfFrom, and_assoc]

theorem Sparse.get_cons_same {α : Type} (default : α) (k : Nat) (v : α) (rest : List (Nat × α)) :
    Sparse.get default ((k, v) :: rest) k = v := if_pos rfl

theorem Sparse.get_cons_other {α : Type} (default : α) {k key : Nat} (v : α) (rest : List (Nat × α)) (differs : key ≠ k) :
    Sparse.get default ((k, v) :: rest) key = Sparse.get default rest key := if_neg differs

/-- A key below a canonical list is not listed. -/
theorem Sparse.get_below {α : Type} [DecidableEq α] {default : α} {bound low key : Nat} {l : List (Nat × α)}
    (wf : Sparse.wfFrom default bound low l = true) (below : key < low) : Sparse.get default l key = default := by
  induction l generalizing low with
  | nil => rfl
  | cons entry rest ih =>
    obtain ⟨k, v⟩ := entry
    obtain ⟨atLeast, -, -, later⟩ := Sparse.wfFrom_cons.mp wf
    rw [Sparse.get_cons_other default v rest (by omega)]
    exact ih later (by omega)

/-- The first listed key reads as its value, where a list whose keys are all greater reads as the default. -/
theorem Sparse.get_ne_of_head_below {α : Type} [DecidableEq α] {default : α} {bound k : Nat} {v : α}
    {rest l : List (Nat × α)} (listed : v ≠ default) (wf : Sparse.wfFrom default bound (k + 1) l = true) :
    Sparse.get default ((k, v) :: rest) k ≠ Sparse.get default l k := by
  rw [Sparse.get_cons_same, Sparse.get_below wf (Nat.lt_succ_self k)]
  exact listed

/-- Canonical lists that read alike are equal: the lists agree on their least key, so on its value, so on the rest. -/
theorem Sparse.ext_of_wfFrom {α : Type} [DecidableEq α] {default : α} {bound low : Nat} {l l' : List (Nat × α)}
    (wf : Sparse.wfFrom default bound low l = true) (wf' : Sparse.wfFrom default bound low l' = true)
    (alike : ∀ key, Sparse.get default l key = Sparse.get default l' key) : l = l' := by
  induction l generalizing low l' with
  | nil =>
    cases l' with
    | nil => rfl
    | cons entry' rest' =>
      obtain ⟨k', v'⟩ := entry'
      obtain ⟨-, -, listed', -⟩ := Sparse.wfFrom_cons.mp wf'
      exact absurd (alike k').symm (Sparse.get_ne_of_head_below (bound := bound) listed' rfl)
  | cons entry rest ih =>
    obtain ⟨k, v⟩ := entry
    obtain ⟨-, below, listed, later⟩ := Sparse.wfFrom_cons.mp wf
    cases l' with
    | nil => exact absurd (alike k) (Sparse.get_ne_of_head_below (bound := bound) listed rfl)
    | cons entry' rest' =>
      obtain ⟨k', v'⟩ := entry'
      obtain ⟨-, below', listed', later'⟩ := Sparse.wfFrom_cons.mp wf'
      rcases Nat.lt_trichotomy k k' with less | rfl | greater
      · have allGreater : Sparse.wfFrom default bound (k + 1) ((k', v') :: rest') = true :=
          Sparse.wfFrom_cons.mpr ⟨less, below', listed', later'⟩
        exact absurd (alike k) (Sparse.get_ne_of_head_below listed allGreater)
      · have sameValue : v = v' := by
          simpa only [Sparse.get_cons_same] using alike k
        have sameRest : rest = rest' := by
          refine ih later later' fun key => ?_
          by_cases atHead : key = k
          · rw [atHead, Sparse.get_below later (Nat.lt_succ_self k), Sparse.get_below later' (Nat.lt_succ_self k)]
          · simpa only [Sparse.get_cons_other default _ _ atHead] using alike key
        rw [sameValue, sameRest]
      · have allGreater : Sparse.wfFrom default bound (k' + 1) ((k, v) :: rest) = true :=
          Sparse.wfFrom_cons.mpr ⟨greater, below, listed, later⟩
        exact absurd (alike k').symm (Sparse.get_ne_of_head_below listed' allGreater)

/-- Settles O13: memory is sparse data with the fill byte as default. -/
theorem canonicalMemoryIsExtensional : Obligations.CanonicalMemoryIsExtensional := by
  intro m m' wf wf' alike
  exact Sparse.ext_of_wfFrom wf wf' alike

end Sys2Proof.Machine
end

section
/-!
PROOFS. No instruction reads F (O37): every operation, run in two states that differ in F alone, gives two such states.
-/

namespace Sys2Proof.Claims

open Sys2Proof.Machine

/-! ## The operations in a state with another F -/

@[simp] theorem withFloat_wordOperand (d : MemOperand) (s : State) (f : FloatPattern) :
    wordOperand d (withFloat s f) = wordOperand d s := rfl

@[simp] theorem withFloat_byteOperand (d : MemOperand) (s : State) (f : FloatPattern) :
    byteOperand d (withFloat s f) = byteOperand d s := rfl

@[simp] theorem withFloat_storeAddr (m : Mnemonic) (d : MemOperand) (s : State) (f : FloatPattern) :
    storeAddr m d (withFloat s f) = storeAddr m d s := rfl

@[simp] theorem withFloat_jumpTarget (m : Mnemonic) (d : MemOperand) (s : State) (f : FloatPattern) :
    jumpTarget m d (withFloat s f) = jumpTarget m d s := rfl

@[simp] theorem withFloat_deviceId (m : Mnemonic) (d : MemOperand) (s : State) (f : FloatPattern) :
    deviceId m d (withFloat s f) = deviceId m d s := rfl

@[simp] theorem withFloat_regNum (s : State) (f : FloatPattern) (k : RegField) :
    regNum (withFloat s f) k = regNum s k := rfl

/-- F has no integer value, so a register read does not see it (R90). -/
@[simp] theorem withFloat_regRead (s : State) (f : FloatPattern) (k : RegField) :
    regRead (withFloat s f) k = regRead s k := by
  have sameInteger : ∀ n, (withFloat s f).regs.integer n = s.regs.integer n := fun n => by cases n <;> rfl
  simp only [regRead, sameInteger]
  rfl

theorem withFloat_memWriteWord (s : State) (f : FloatPattern) (a v : Word) :
    memWriteWord (withFloat s f) a v = (memWriteWord s a v).map (withFloat · f) := by
  unfold memWriteWord; split <;> rfl

theorem withFloat_memWriteByte (s : State) (f : FloatPattern) (a : Word) (v : Byte) :
    memWriteByte (withFloat s f) a v = (memWriteByte s a v).map (withFloat · f) := by
  unfold memWriteByte; split <;> rfl

theorem withFloat_devProbe (s : State) (f : FloatPattern) (id : Byte) :
    devProbe (withFloat s f) id = withFloat (devProbe s id) f := by
  have sameDevice : (withFloat s f).device id = s.device id := rfl
  simp only [devProbe, sameDevice]
  split <;> rfl

theorem withFloat_devRead (s : State) (f : FloatPattern) (id : Byte) :
    devRead (withFloat s f) id = (devRead s id).map (withFloat · f) := by
  have sameChecks : deviceChecked (withFloat s f) id .write = deviceChecked s id .write := rfl
  simp only [devRead, sameChecks]
  cases deviceChecked s id .write with
  | error e => rfl
  | ok d =>
    dsimp only
    cases d.input[d.rpos]? <;> rfl

theorem withFloat_devWrite (s : State) (f : FloatPattern) (id v : Byte) :
    devWrite (withFloat s f) id v = (devWrite s id v).map (withFloat · f) := by
  have sameChecks : deviceChecked (withFloat s f) id .read = deviceChecked s id .read := rfl
  simp only [devWrite, sameChecks]
  cases deviceChecked s id .read <;> rfl

/-! ## The end of an instruction -/

/-- Two outcomes that are next states and differ in F alone, the second with the pattern `f`. -/
def AgreeButFloat (f : FloatPattern) (o o' : Host.Outcome State Fault Refusal) : Prop :=
  ∃ t, o = .next t ∧ o' = .next (withFloat t f)

/-- An instruction whose writes agree but for F answers states that do, faulting or not. -/
theorem complete_agree {s : State} {f : FloatPattern} {r r' : Except Exception State}
    (same : r' = r.map (withFloat · f)) : AgreeButFloat f (complete s r) (complete (withFloat s f) r') := by
  rw [same]
  cases r with
  | ok t => exact ⟨t, rfl, rfl⟩
  | error e => exact ⟨s.raise e, rfl, rfl⟩

/-- One operand resolved, then a write that commutes with a change of F. -/
theorem complete_map_agree {α : Type} {s : State} {f : FloatPattern} {operand : Except Exception α}
    {write write' : α → State} (same : ∀ v, write' v = withFloat (write v) f) :
    AgreeButFloat f (complete s (operand.map write)) (complete (withFloat s f) (operand.map write')) := by
  refine complete_agree ?_
  cases operand with
  | ok v => exact congrArg Except.ok (same v)
  | error e => rfl

/-- One operand resolved, then an access that commutes with a change of F. -/
theorem complete_bind_agree {α : Type} {s : State} {f : FloatPattern} {operand : Except Exception α}
    {access access' : α → Except Exception State} (same : ∀ v, access' v = (access v).map (withFloat · f)) :
    AgreeButFloat f (complete s (operand.bind access)) (complete (withFloat s f) (operand.bind access')) := by
  refine complete_agree ?_
  cases operand with
  | ok v => exact same v
  | error e => rfl

/-! ## The shared meanings -/

theorem loadWord_agree {put : State → Word → State} (d : MemOperand) (s : State) (f : FloatPattern)
    (same : ∀ v, put (withFloat s f) v = withFloat (put s v) f) :
    AgreeButFloat f (loadWord put d s) (loadWord put d (withFloat s f)) := by
  rw [loadWord, loadWord, withFloat_wordOperand]
  exact complete_map_agree same

theorem loadLowByte_agree (d : MemOperand) (s : State) (f : FloatPattern) :
    AgreeButFloat f (loadLowByte d s) (loadLowByte d (withFloat s f)) := by
  rw [loadLowByte, loadLowByte, withFloat_byteOperand]
  exact complete_map_agree fun _ => rfl

theorem storeWord_agree (m : Mnemonic) (d : MemOperand) (v : Word) (s : State) (f : FloatPattern) :
    AgreeButFloat f (storeWord m d v s) (storeWord m d v (withFloat s f)) := by
  rw [storeWord, storeWord, withFloat_storeAddr]
  exact complete_bind_agree fun a => withFloat_memWriteWord s f a v

theorem storeLowByte_agree (d : MemOperand) (s : State) (f : FloatPattern) :
    AgreeButFloat f (storeLowByte d s) (storeLowByte d (withFloat s f)) := by
  rw [storeLowByte, storeLowByte, withFloat_storeAddr]
  exact complete_bind_agree fun a => withFloat_memWriteByte s f a _

theorem compareA_agree (d : MemOperand) (s : State) (f : FloatPattern) :
    AgreeButFloat f (compareA d s) (compareA d (withFloat s f)) := by
  rw [compareA, compareA, withFloat_wordOperand]
  exact complete_map_agree fun _ => rfl

theorem jumpIf_agree (taken : Bool) (m : Mnemonic) (d : MemOperand) (s : State) (f : FloatPattern) :
    AgreeButFloat f (jumpIf taken m d s) (jumpIf taken m d (withFloat s f)) := by
  rw [jumpIf, jumpIf, withFloat_jumpTarget]
  exact complete_map_agree fun _ => by cases taken <;> rfl

theorem jumpAndLink_agree (d : MemOperand) (s : State) (f : FloatPattern) :
    AgreeButFloat f (jumpAndLink d s) (jumpAndLink d (withFloat s f)) := by
  rw [jumpAndLink, jumpAndLink, withFloat_jumpTarget]
  exact complete_map_agree fun _ => rfl

theorem returnFromSubroutine_agree (s : State) (f : FloatPattern) :
    AgreeButFloat f (returnFromSubroutine s) (returnFromSubroutine (withFloat s f)) :=
  complete_agree rfl

theorem testDevice_agree (d : MemOperand) (s : State) (f : FloatPattern) :
    AgreeButFloat f (testDevice d s) (testDevice d (withFloat s f)) := by
  rw [testDevice, testDevice, withFloat_deviceId]
  exact complete_map_agree (withFloat_devProbe s f)

theorem readDevice_agree (d : MemOperand) (s : State) (f : FloatPattern) :
    AgreeButFloat f (readDevice d s) (readDevice d (withFloat s f)) := by
  rw [readDevice, readDevice, withFloat_deviceId]
  exact complete_bind_agree (withFloat_devRead s f)

theorem writeDevice_agree (d : MemOperand) (s : State) (f : FloatPattern) :
    AgreeButFloat f (writeDevice d s) (writeDevice d (withFloat s f)) := by
  rw [writeDevice, writeDevice, withFloat_deviceId]
  exact complete_bind_agree fun id => withFloat_devWrite s f id _

theorem compr_agree (r1 r2 : RegField) (s : State) (f : FloatPattern) :
    AgreeButFloat f (execCompr r1 r2 s) (execCompr r1 r2 (withFloat s f)) := by
  simp only [execCompr, withFloat_regRead]
  exact complete_bind_agree fun v1 => by cases regRead s r2 <;> rfl

/-- TIXR, written out: the register is read once before X is incremented and once after (R112). -/
theorem execTixr_eq (r1 r2 : RegField) (s : State) :
    execTixr r1 r2 s = complete s ((regRead s r1).bind fun _ =>
      (regRead (s.setX (s.regs.x + 1#24)) r1).map
        ((s.setX (s.regs.x + 1#24)).compareWords (s.regs.x + 1#24))) := rfl

theorem tixr_agree (r1 r2 : RegField) (s : State) (f : FloatPattern) :
    AgreeButFloat f (execTixr r1 r2 s) (execTixr r1 r2 (withFloat s f)) := by
  have readAfter : regRead ((withFloat s f).setX (s.regs.x + 1#24)) r1 = regRead (s.setX (s.regs.x + 1#24)) r1 :=
    withFloat_regRead (s.setX (s.regs.x + 1#24)) f r1
  have sameX : (withFloat s f).regs.x = s.regs.x := rfl
  rw [execTixr_eq, execTixr_eq, withFloat_regRead, sameX, readAfter]
  exact complete_bind_agree fun _ => by cases regRead (s.setX (s.regs.x + 1#24)) r1 <;> rfl

theorem unknownMnemonic_agree (length : Nat) (opcode : Byte) (s : State) (f : FloatPattern) :
    AgreeButFloat f (unknownMnemonic length opcode s) (unknownMnemonic length opcode (withFloat s f)) :=
  complete_agree rfl

/-- CLEAR F makes the pattern zero whatever it was; CLEAR of another register leaves it, and one that faults too (R90, R110). -/
theorem clear_agree (r1 r2 : RegField) (s : State) (f : FloatPattern) :
    AgreeButFloat (if r1 = 6#4 then 0#48 else f) (execClear r1 r2 s) (execClear r1 r2 (withFloat s f)) := by
  cases named : regNamed r1 with
  | none =>
    have notFloat : r1 ≠ 6#4 := by rintro rfl; cases named
    rw [if_neg notFloat]
    have fault : regNum s r1 = .error (.illegalRegister (instructionAddress s 2) r1) := by simp [regNum, named]
    rw [execClear, execClear, withFloat_regNum, fault]
    exact complete_agree rfl
  | some n =>
    have found : regNum s r1 = .ok n := by simp [regNum, named]
    rw [eq_number_of_regNamed named] at found ⊢
    refine ⟨s.setRegs (s.regs.put n 0#24), ?_, ?_⟩
    · rw [execClear, found]; rfl
    · rw [execClear, withFloat_regNum, found]
      cases n <;> rfl

/-- Every instruction but CLEAR keeps the pattern that the state holds. -/
theorem exec_agree (i : Instr) (s : State) (f : FloatPattern) (other : ∀ r1 r2, i ≠ .clear r1 r2) :
    AgreeButFloat f (exec i s) (exec i (withFloat s f)) := by
  cases i with
  | clear r1 r2 => exact absurd rfl (other r1 r2)
  | compr r1 r2 => exact compr_agree r1 r2 s f
  | tixr r1 r2 => exact tixr_agree r1 r2 s f
  | lda d | ldaE d => exact loadWord_agree d s f fun _ => rfl
  | ldt d | ldtE d => exact loadWord_agree d s f fun _ => rfl
  | ldch d | ldchE d => exact loadLowByte_agree d s f
  | sta d | staE d => exact storeWord_agree .sta d s.regs.a s f
  | stl d | stlE d => exact storeWord_agree .stl d s.regs.l s f
  | stx d | stxE d => exact storeWord_agree .stx d s.regs.x s f
  | stch d | stchE d => exact storeLowByte_agree d s f
  | comp d | compE d => exact compareA_agree d s f
  | j d | jE d => exact jumpIf_agree true .j d s f
  | jeq d | jeqE d => exact jumpIf_agree (swEqual s) .jeq d s f
  | jlt d | jltE d => exact jumpIf_agree (swLess s) .jlt d s f
  | jsub d | jsubE d => exact jumpAndLink_agree d s f
  | rsub d | rsubE d => exact returnFromSubroutine_agree s f
  | td d | tdE d => exact testDevice_agree d s f
  | rd d | rdE d => exact readDevice_agree d s f
  | wd d | wdE d => exact writeDevice_agree d s f
  | _ => exact unknownMnemonic_agree _ _ s f

/-- Settles O37: CLEAR apart, which alone writes F, every instruction's meaning is one of the shared ones. -/
theorem floatIsNeverRead : Obligations.FloatIsNeverRead := by
  intro i s f
  by_cases clears : ∃ r1 r2, i = .clear r1 r2
  · obtain ⟨r1, r2, rfl⟩ := clears
    exact clear_agree r1 r2 s f
  · have other : ∀ r1 r2, i ≠ .clear r1 r2 := fun r1 r2 eq => clears ⟨r1, r2, eq⟩
    obtain ⟨t, here, there⟩ := exec_agree i s f other
    refine ⟨t, here, there.trans ?_⟩
    split
    · exact absurd rfl (other _ _)
    · rfl

end Sys2Proof.Claims
end

section
/-!
PROOFS. The boundary scan makes a good boundary list, so a launch has the invariant (O48) and a run keeps the scan's list (O50);
what a launch and reset leave (O47, O54, O55).
-/

namespace Sys2Proof.Laws

/-- No instruction is empty (R74). -/
theorem format_length_pos (f : Format) : 0 < f.length := by cases f <;> decide

/-- The format of what decodes is the one byte_0 and byte_1 tell; where there is no byte_1, any byte in its place tells it (R72 to
R74). -/
theorem format_of_decode {b0 c : Byte} {tail rest : List Byte} {i : Instr} (decoded : decode (b0 :: tail) = .ok (i, rest)) :
    i.format = formatOf b0 (tail.headD c) := by
  obtain ⟨b0', tail', eq, found⟩ := decode_cases decoded
  obtain ⟨rfl, rfl⟩ := List.cons.inj eq
  rcases found with ⟨row, -⟩ | ⟨make, b1, row, -, made⟩ | ⟨make3, make4, b1, b2, row, short, tailEq, made⟩ |
    ⟨make3, make4, b1, b2, b3, row, long, tailEq, made⟩
  · obtain ⟨-, format, -⟩ : RowFits _ (.one i) := opcodeRow_fits row
    simp [formatOf, row, format]
  · obtain ⟨-, format, -⟩ := (show RowFits _ (.two make) from opcodeRow_fits row) (b1.extractLsb' 4 4) (b1.extractLsb' 0 4)
    simp [formatOf, row, made, format]
  · obtain ⟨⟨-, format, -⟩, -⟩ := (show RowFits _ (.threeFour make3 make4) from opcodeRow_fits row)
      (memOperandOf b0 b1 (.disp12 (disp12Of b1 b2)))
    simp [formatOf, row, tailEq, short, made, format]
  · obtain ⟨-, -, format, -⟩ := (show RowFits _ (.threeFour make3 make4) from opcodeRow_fits row)
      (memOperandOf b0 b1 (.addr20 (addr20Of b1 b2 b3)))
    simp [formatOf, row, tailEq, long, made, format]

end Sys2Proof.Laws

namespace Sys2Proof.Machine

open Sys2Proof.Safety

/-! ## The record of the bytes at an address -/

/-- What the record holds, by the instruction decoded (R91). -/
theorem recordOf_ok {a : Word} {bytes : List Byte} {r : DecodedInstruction} (h : recordOf a bytes = .ok r) :
    ∃ i rest, decode bytes = .ok (i, rest) ∧ r.address = a ∧ r.rawBytes = bytes.take i.length ∧ r.format = i.format := by
  unfold recordOf at h
  cases decoded : decode bytes with
  | error e => rw [decoded] at h; cases h
  | ok found =>
    obtain ⟨i, rest⟩ := found
    rw [decoded] at h
    cases h
    exact ⟨i, rest, rfl, rfl, rfl, rfl⟩

theorem Memory.length_readBytes (m : Memory) (a n : Nat) : (m.readBytes a n).length = n := by simp [Memory.readBytes]

theorem Memory.readBytes_succ (m : Memory) (a n : Nat) : m.readBytes a (n + 1) = m.read a :: m.readBytes (a + 1) n := by
  have shift : ∀ k < n, m.read (a + (k + 1)) = m.read (a + 1 + k) := fun k _ => congrArg m.read (by omega)
  simpa [Memory.readBytes, List.range_succ_eq_map] using shift

theorem Memory.headD_readBytes (m : Memory) (a n : Nat) : (m.readBytes a n).headD (m.read a) = m.read a := by
  cases n with
  | zero => rfl
  | succ n => rw [Memory.readBytes_succ]; rfl

/-- The length the scan reads at an address (R272, R74). -/
def lengthAt (m : Memory) (a : Nat) : Nat := (formatOf (m.read a) (m.read (a + 1))).length

/-- The record of as many bytes as the scan's length says holds just those bytes, and its length is that one (R91, R272). -/
theorem recordOf_readBytes {m : Memory} {address : Word} {a : Nat} {r : DecodedInstruction}
    (found : recordOf address (m.readBytes a (lengthAt m a)) = .ok r) :
    r.address = address ∧ r.rawBytes = m.readBytes a (lengthAt m a) ∧ r.length = lengthAt m a := by
  obtain ⟨i, rest, decoded, address_eq, raw, format⟩ := recordOf_ok found
  obtain ⟨n, length⟩ : ∃ n, lengthAt m a = n + 1 := Nat.exists_eq_add_one.mpr (Laws.format_length_pos _)
  have formatAt : i.format = formatOf (m.read a) (m.read (a + 1)) := by
    rw [length, Memory.readBytes_succ] at decoded
    rw [Laws.format_of_decode (c := m.read (a + 1)) decoded, Memory.headD_readBytes]
  have sameLength : i.length = lengthAt m a := congrArg Format.length formatAt
  refine ⟨address_eq, ?_, ?_⟩
  · rw [raw, sameLength]
    exact List.take_of_length_le (Memory.length_readBytes m a _).le
  · rw [DecodedInstruction.length, format]
    exact sameLength

/-! ## The boundary scan -/

theorem boundsOkFrom_mono {low low' : Nat} {bs : List DecodedInstruction} (le : low' ≤ low) (ok : boundsOkFrom low bs) :
    boundsOkFrom low' bs := by
  cases bs with
  | nil => trivial
  | cons r rest =>
    obtain ⟨record, length, code, atLeast, inside, later⟩ := ok
    exact ⟨record, length, code, le.trans atLeast, inside, later⟩

/-- A record the scan makes, before a good list from its end on, is a good list from its address on. -/
theorem boundsOkFrom_record {m : Memory} {a : Nat} {r : DecodedInstruction} {rest : List DecodedInstruction}
    (code : m.read a ≠ Config.fillByte) (fits : a + lengthAt m a ≤ Config.memSize)
    (found : recordOf (BitVec.ofNat 24 a) (m.readBytes a (lengthAt m a)) = .ok r)
    (later : boundsOkFrom (a + lengthAt m a) rest) : boundsOkFrom a (r :: rest) := by
  obtain ⟨address, raw, length⟩ := recordOf_readBytes found
  have positive : 0 < lengthAt m a := Laws.format_length_pos _
  have addressNat : r.address.toNat = a := by
    rw [address, BitVec.toNat_ofNat]
    exact Nat.mod_eq_of_lt (by rw [Config.memSize] at fits; omega)
  refine ⟨?_, ?_, ?_, addressNat.ge, ?_, ?_⟩
  · rw [raw, address]; exact found
  · rw [raw, length, Memory.length_readBytes]
  · obtain ⟨n, succ⟩ := Nat.exists_eq_add_one.mpr positive
    simpa [raw, succ, Memory.readBytes_succ] using code
  · rw [addressNat, length]; exact fits
  · rw [addressNat, length]; exact later

/-- The scan from an address on makes a good boundary list from that address on (R272, R273). -/
theorem boundsOkFrom_scanFrom (m : Memory) (extent fuel a : Nat) : boundsOkFrom a (scanFrom m extent fuel a) := by
  induction fuel generalizing a with
  | zero => trivial
  | succ fuel ih =>
    by_cases below : a < extent
    · by_cases fill : m.read a = Config.fillByte
      · rw [scanFrom_fill below fill]
        exact boundsOkFrom_mono (Nat.le_succ a) (ih (a + 1))
      · by_cases fits : a + lengthAt m a ≤ Config.memSize
        · cases found : recordOf (BitVec.ofNat 24 a) (m.readBytes a (lengthAt m a)) with
          | ok r =>
            rw [scanFrom_record below fill fits found]
            exact boundsOkFrom_record fill fits found (ih (a + lengthAt m a))
          | error e =>
            have stops : scanFrom m extent (fuel + 1) a = [] := by
              simp only [lengthAt] at fits found
              simp [scanFrom, fill, found]
            rw [stops]; trivial
        · rw [scanFrom_stop fill (Nat.lt_of_not_le fits)]; trivial
    · rw [scanFrom_end (Nat.le_of_not_lt below)]; trivial

theorem boundsOk_boundaryScan (m : Memory) (extent : Nat) : boundsOk (boundaryScan m extent) :=
  boundsOkFrom_scanFrom m extent extent 0

theorem le_address_of_boundsOkFrom {low : Nat} {bs : List DecodedInstruction} (ok : boundsOkFrom low bs) :
    ∀ r ∈ bs, low ≤ r.address.toNat := by
  induction bs generalizing low with
  | nil => simp
  | cons r rest ih =>
    obtain ⟨-, -, -, atLeast, -, later⟩ := ok
    refine List.forall_mem_cons.mpr ⟨atLeast, fun q member => ?_⟩
    have := ih later q member
    omega

/-- No address has two records in a good boundary list: each starts after the one before it (R40, R273). -/
theorem nodup_of_boundsOkFrom {low : Nat} {bs : List DecodedInstruction} (ok : boundsOkFrom low bs) :
    (bs.map fun r => r.address).Nodup := by
  induction bs generalizing low with
  | nil => simp
  | cons r rest ih =>
    obtain ⟨-, -, -, -, -, later⟩ := ok
    refine List.nodup_cons.mpr ⟨fun again => ?_, ih later⟩
    obtain ⟨q, member, same⟩ := List.mem_map.mp again
    have sameAddress : q.address = r.address := same
    have after := le_address_of_boundsOkFrom later q member
    rw [sameAddress] at after
    have positive : 0 < r.length := Laws.format_length_pos r.format
    omega

/-! ## The load -/

/-- The load writes one byte; one outside memory is no part of the image (log entry 10). -/
def loadCell (m : Memory) (c : Host.Cell) : Memory := if c.1 < Config.memSize then m.write c.1 c.2 else m

theorem Launch.memory_eq (p : Launch) : p.memory = p.image.foldl loadCell [] := rfl

theorem loadCell_wf {m : Memory} (wf : m.wf = true) (c : Host.Cell) : (loadCell m c).wf = true := by
  unfold loadCell
  split
  · exact Memory.wf_write m c.2 ‹_› wf
  · exact wf

theorem read_loadCell_other {m : Memory} {c : Host.Cell} {a : Nat} (differs : c.1 ≠ a) : (loadCell m c).read a = m.read a := by
  unfold loadCell
  split
  · exact Memory.read_write_other m c.2 differs.symm
  · rfl

theorem read_loadCell_same {m : Memory} {a : Nat} {v : Byte} (inside : a < Config.memSize) :
    (loadCell m (a, v)).read a = v := by
  rw [loadCell, if_pos inside]
  exact Memory.read_write_same m a v

/-- Cells at other addresses leave a byte as it was. -/
theorem read_foldl_loadCell {cells : List Host.Cell} {a : Nat} (others : ∀ c ∈ cells, c.1 ≠ a) (m : Memory) :
    (cells.foldl loadCell m).read a = m.read a :=
  List.foldlRecOn (motive := fun m' => m'.read a = m.read a) cells loadCell rfl
    fun _ same c member => (read_loadCell_other (others c member)).trans same

theorem Launch.memory_wf (p : Launch) : p.memory.wf = true :=
  List.foldlRecOn (motive := fun m : Memory => m.wf = true) p.image loadCell Memory.wf_nil fun _ wf c _ => loadCell_wf wf c

/-- The host maps one device: available, its input as given, otherwise untouched (R39, R43). -/
def mapDevice (ds : Devices) (c : Byte × List Byte) : Devices :=
  Sparse.set Device.absent ds c.1.toNat { Device.absent with avail := true, input := c.2 }

theorem Launch.registry_eq (p : Launch) : p.registry = p.devices.foldl mapDevice [] := rfl

/-- What every device's record is after one is mapped. -/
theorem get_mapDevice (ds : Devices) (c : Byte × List Byte) (id : Byte) :
    Sparse.get Device.absent (mapDevice ds c) id.toNat =
      if id = c.1 then { Device.absent with avail := true, input := c.2 } else Sparse.get Device.absent ds id.toNat := by
  simp only [mapDevice, Sparse.get_set, BitVec.toNat_inj]

/-- Mapping other devices leaves a record as it was. -/
theorem get_foldl_mapDevice {devices : List (Byte × List Byte)} {id : Byte} (others : ∀ c ∈ devices, c.1 ≠ id)
    (ds : Devices) :
    Sparse.get Device.absent (devices.foldl mapDevice ds) id.toNat = Sparse.get Device.absent ds id.toNat :=
  List.foldlRecOn (motive := fun ds' => Sparse.get Device.absent ds' id.toNat = Sparse.get Device.absent ds id.toNat)
    devices mapDevice rfl fun ds' same c member => by rw [get_mapDevice, if_neg (others c member).symm, same]

theorem Launch.registry_wf (p : Launch) : p.registry.wf = true :=
  List.foldlRecOn (motive := fun ds : Devices => ds.wf = true) p.devices mapDevice rfl
    fun ds wf c _ => Sparse.wf_set Device.absent Config.deviceCount ds c.1.toNat _ c.1.isLt wf

/-- A device that no run has touched: not read, not written, no direction chosen (R43, R169). -/
def Device.Untouched (d : Device) : Prop := d.rpos = 0 ∧ d.out = [] ∧ d.used = .unused

theorem Device.Untouched.deviceOk {d : Device} (untouched : d.Untouched) : deviceOk d := by
  obtain ⟨rpos, out, used⟩ := untouched
  exact ⟨by simp [rpos], fun _ => rpos, fun _ => out, fun _ => used⟩

/-- Every device is untouched at launch, mapped or not (R43). -/
theorem launch_device_untouched (p : Launch) (id : Byte) : ((State.launch p).device id).Untouched := by
  change (Sparse.get Device.absent p.registry id.toNat).Untouched
  rw [Launch.registry_eq]
  refine List.foldlRecOn (motive := fun ds : Devices => (Sparse.get Device.absent ds id.toNat).Untouched) p.devices mapDevice
    ⟨rfl, rfl, rfl⟩ fun ds untouched c _ => ?_
  rw [get_mapDevice]
  split
  · exact ⟨rfl, rfl, rfl⟩
  · exact untouched

end Sys2Proof.Machine

namespace Sys2Proof.Safety

open Sys2Proof.Machine

/-- Settles O48: the image and the registry are written in canonical form, every device is untouched, and the boundary list is the
scan's; a launch at the sentinel is Halted(ok) at once. -/
theorem launchHasInvariant : Obligations.LaunchHasInvariant := fun p =>
  { memory := p.memory_wf
    devices := p.registry_wf
    device := fun id => (launch_device_untouched p id).deviceOk
    bounds := boundsOk_boundaryScan p.memory p.extent
    sentinel := by
      intro enabled atSentinel
      have status : (State.launch p).status = .haltedOk := if_pos atSentinel
      simp [status] at enabled }

/-- No step changes the boundary list (R40). -/
theorem step_bounds {s t : State} (stepped : step s = .next t) : t.bounds = s.bounds := by
  obtain ⟨-, ⟨e, -, eq⟩ | ⟨i, u, -, executed, eq⟩⟩ := step_cases stepped
  · rw [eq]; rfl
  · obtain ⟨bounds, -, -⟩ := exec_frame executed
    rw [eq, sentinelHalt_bounds, State.countStep_bounds, bounds, dispatched_bounds]

/-- No run changes the boundary list (R40). -/
theorem reaches_bounds {s t : State} (reached : Reaches s t) : t.bounds = s.bounds := by
  induction reached with
  | here => rfl
  | step _ stepped ih => rw [step_bounds stepped, ih]

/-- Settles O50: the list is the scan's at launch and no run changes it; the scan's records stand in address order. -/
theorem boundaryListIsFixed : Obligations.BoundaryListIsFixed := by
  intro p t reached
  have same : t.bounds = boundaryScan p.memory p.extent := reaches_bounds reached
  rw [same]
  exact ⟨rfl, nodup_of_boundsOkFrom (boundsOk_boundaryScan p.memory p.extent)⟩

/-- Settles O55: each part of the launch state from what the load's fold wrote last. -/
theorem launchValues : Obligations.LaunchValues := by
  intro p
  refine ⟨rfl, fun a unwritten => ?_, fun earlier later a v image inside last => ?_, fun id unmapped => ?_,
    fun earlier later id input devices last => ?_, launch_device_untouched p, rfl, rfl⟩
  · exact read_foldl_loadCell unwritten []
  · have inMem : a < Config.memSize := by rw [Config.memSize]; omega
    change p.memory.read a = v
    rw [Launch.memory_eq, image, List.foldl_append, List.foldl_cons, read_foldl_loadCell last, read_loadCell_same inMem]
  · change (Sparse.get Device.absent p.registry id.toNat).avail = false
    rw [Launch.registry_eq, get_foldl_mapDevice unmapped]
    rfl
  · have record : (State.launch p).device id = { Device.absent with avail := true, input := input } := by
      change Sparse.get Device.absent p.registry id.toNat = _
      rw [Launch.registry_eq, devices, List.foldl_append, List.foldl_cons, get_foldl_mapDevice last, get_mapDevice, if_pos rfl]
    rw [record]
    exact ⟨rfl, rfl⟩

/-- Settles O47: nothing is loaded, no device is mapped, and PC is 0. -/
theorem resetHasInvariant : Obligations.ResetHasInvariant :=
  { memory := Memory.wf_nil
    devices := rfl
    device := fun _ => Device.Untouched.deviceOk ⟨rfl, rfl, rfl⟩
    bounds := trivial
    sentinel := fun _ => by decide }

/-- Settles O54: the values of `State.reset`, with empty memory and no devices. -/
theorem resetValues : Obligations.ResetValues :=
  ⟨rfl, Memory.read_nil, fun _ => ⟨rfl, rfl, rfl⟩, rfl, rfl⟩

end Sys2Proof.Safety
end

section
/-!
PROOFS. Results and frames of the conditional jumps (O20), of CLEAR, COMPR and TIXR (O22 to O24), and of TD (O25).
-/

namespace Sys2Proof.Claims

open Sys2Proof.Machine

/-! ## Conditional jumps -/

/-- A jump whose operand address is `a` puts it in PC if it is taken, and changes nothing else (R141 to R143). -/
theorem jumpIf_of_operandAt {m : Mnemonic} {d : MemOperand} {s : State} {a : Word} (named : operandAt d s a = true)
    (taken : Bool) : jumpIf taken m d s = .next (if taken then s.setPc a else s) := by
  have target : jumpTarget m d s = .ok a :=
    (addressOperand_memory (not_immediate_of_operandAt named)).trans (opAddr_of_operandAt named)
  rw [jumpIf, target]
  rfl

/-- JEQ's test (R142). -/
theorem swEqual_iff (s : State) : swEqual s = true ↔ s.regs.sw.toNat = 0 := by
  rw [swEqual, beq_iff_eq, ← BitVec.toNat_inj]
  rfl

/-- JLT's test: bit 23 is the sign (R143). -/
theorem swLess_iff (s : State) : swLess s = true ↔ 0x800000 ≤ s.regs.sw.toNat := by
  have bound := s.regs.sw.isLt
  rw [swLess, decide_eq_true_iff, BitVec.toInt_eq_toNat_cond]
  split <;> omega

/-- Settles O20: all four are `jumpIf` under the two tests. -/
theorem conditionalJumpResult : Obligations.ConditionalJumpResult := by
  intro d s a named
  have taken : ∀ m, jumpIf true m d s = .next (s.setPc a) := fun m => jumpIf_of_operandAt named true
  have passed : ∀ m, jumpIf false m d s = .next s := fun m => jumpIf_of_operandAt named false
  have jeq : exec (.jeq d) s = jumpIf (swEqual s) .jeq d s ∧ exec (.jeqE d) s = jumpIf (swEqual s) .jeq d s := ⟨rfl, rfl⟩
  have jlt : exec (.jlt d) s = jumpIf (swLess s) .jlt d s ∧ exec (.jltE d) s = jumpIf (swLess s) .jlt d s := ⟨rfl, rfl⟩
  refine ⟨fun zero => ?_, fun nonzero => ?_, fun negative => ?_, fun nonnegative => ?_⟩
  · rw [(swEqual_iff s).mpr zero, taken] at jeq
    exact jeq
  · rw [Bool.eq_false_iff.mpr (mt (swEqual_iff s).mp nonzero), passed] at jeq
    exact jeq
  · rw [(swLess_iff s).mpr negative, taken] at jlt
    exact jlt
  · rw [Bool.eq_false_iff.mpr (mt (swLess_iff s).mp nonnegative.not_ge), passed] at jlt
    exact jlt

/-! ## Register instructions -/

/-- CLEAR of a field that names a register puts zero there, whatever the second field (R110). -/
theorem exec_clear_of_regNamed {r1 : RegField} {n : RegName} (named : regNamed r1 = some n) (r2 : RegField) (s : State) :
    exec (.clear r1 r2) s = .next (s.setRegs (s.regs.put n 0#24)) := by
  have found : regNum s r1 = .ok n := by simp [regNum, named]
  change complete s ((regNum s r1).map _) = _
  rw [found]
  rfl

/-- Settles O22, register by register. -/
theorem clearResult : Obligations.ClearResult := fun r2 s =>
  ⟨exec_clear_of_regNamed (n := .a) rfl r2 s, exec_clear_of_regNamed (n := .x) rfl r2 s,
    exec_clear_of_regNamed (n := .l) rfl r2 s, exec_clear_of_regNamed (n := .b) rfl r2 s,
    exec_clear_of_regNamed (n := .s) rfl r2 s, exec_clear_of_regNamed (n := .t) rfl r2 s,
    exec_clear_of_regNamed (n := .f) rfl r2 s, exec_clear_of_regNamed (n := .pc) rfl r2 s,
    exec_clear_of_regNamed (n := .sw) rfl r2 s⟩

/-- A field with a value names an integer register that holds it (R22, R90). -/
theorem regNamed_of_registerValue {r : Regs} {k : RegField} {v : Word} (value : registerValue r k = some v) :
    ∃ n, regNamed k = some n ∧ r.integer n = some v := by
  unfold registerValue at value
  split_ifs at value with a x l b s t pc sw
  · exact ⟨.a, by rw [a]; rfl, value⟩
  · exact ⟨.x, by rw [x]; rfl, value⟩
  · exact ⟨.l, by rw [l]; rfl, value⟩
  · exact ⟨.b, by rw [b]; rfl, value⟩
  · exact ⟨.s, by rw [s]; rfl, value⟩
  · exact ⟨.t, by rw [t]; rfl, value⟩
  · exact ⟨.pc, by rw [pc]; rfl, value⟩
  · exact ⟨.sw, by rw [sw]; rfl, value⟩

theorem regRead_of_registerValue {s : State} {k : RegField} {v : Word} (value : registerValue s.regs k = some v) :
    regRead s k = .ok v := by
  obtain ⟨n, named, held⟩ := regNamed_of_registerValue value
  simp [regRead, named, held]

/-- Settles O23: both registers are read, and the encoded comparison is the signed one. -/
theorem compareRegistersResult : Obligations.CompareRegistersResult := by
  intro r1 r2 s v1 v2 first second
  change complete s ((regRead s r1).bind fun v1 => (regRead s r2).map fun v2 => s.compareWords v1 v2) = _
  rw [regRead_of_registerValue first, regRead_of_registerValue second, ← swEnc_cmp24]
  rfl

/-- What a register reads as after X is written. -/
theorem registerValue_setX {s : State} {k : RegField} {v : Word} (x : Word) (value : registerValue s.regs k = some v) :
    registerValue (s.setX x).regs k = some (if k = 1#4 then x else v) := by
  by_cases isX : k = 1#4
  · rw [if_pos isX, isX]; rfl
  · rw [if_neg isX, ← value]
    simp [registerValue, isX]

/-- Settles O24: the register is read again after X is incremented. -/
theorem incrementIndexResult : Obligations.IncrementIndexResult := by
  intro r1 r2 s v value
  refine ⟨s.regs.x + 1#24, BitVec.toNat_add _ _, ?_⟩
  have after := regRead_of_registerValue (registerValue_setX (s.regs.x + 1#24) value)
  change execTixr r1 r2 s = _
  rw [execTixr_eq, regRead_of_registerValue value, ← swEnc_cmp24]
  simp only [Except.bind, after]
  rfl

/-! ## TD -/

/-- What a readiness probe answers and leaves (R160, R168; log entry 8). -/
theorem devProbe_regs (s : State) (id : Byte) :
    (devProbe s id).regs =
      { s.regs with sw := if ((s.device id).avail && Config.tdReady id (s.device id).polls) = true then 1#24 else 0#24 } := by
  rcases devProbe_cases s id with ⟨unavailable, eq⟩ | ⟨available, eq⟩
  · rw [eq, unavailable]; rfl
  · rw [eq, available, Bool.true_and]; rfl

theorem devProbe_device_same (s : State) (id : Byte) :
    (devProbe s id).device id =
      { s.device id with
        polls := if (s.device id).avail = true then (s.device id).polls + 1 else (s.device id).polls } := by
  rcases devProbe_cases s id with ⟨unavailable, eq⟩ | ⟨available, eq⟩
  · rw [eq, unavailable]; rfl
  · rw [eq, if_pos available]
    exact State.device_setDevice_same s id _

theorem devProbe_frame (s : State) (id : Byte) :
    (devProbe s id).mem = s.mem ∧ (devProbe s id).bounds = s.bounds ∧ (devProbe s id).status = s.status ∧
      (devProbe s id).steps = s.steps := by
  rcases devProbe_cases s id with ⟨-, eq⟩ | ⟨-, eq⟩
  · rw [eq]; exact ⟨rfl, rfl, rfl, rfl⟩
  · rw [eq]; exact ⟨rfl, rfl, rfl, rfl⟩

/-- Settles O25: both formats are the probe of the device that the operand names. -/
theorem testDeviceResult : Obligations.TestDeviceResult := by
  intro d s a id named
  have probes : testDevice d s = .next (devProbe s id) := by
    rw [testDevice, deviceId_of_deviceAt named]
    rfl
  obtain ⟨mem, bounds, status, steps⟩ := devProbe_frame s id
  have others : ∀ other, other ≠ id → (devProbe s id).device other = s.device other :=
    fun other => exec_device_other (i := .td d) probes rfl named
  exact ⟨_, devProbe s id, probes, probes, rfl, devProbe_regs s id, mem, bounds, status, steps, others,
    devProbe_device_same s id⟩

end Sys2Proof.Claims
end

section
/-!
PROOFS. Memory accesses inside and outside memory (O10 to O12), the word stores (O16), the operand accesses that fault (O32), and
that a fault, taken by an instruction (O34) or before dispatch (O41), changes the status alone.
-/

namespace Sys2Proof.Machine

/-! ## The bounds check -/

theorem inMemory_byte {a : Word} (inside : a.toNat ≤ 0xFFFF) : inMemory a 1 = true :=
  (inMemory_iff a 1).mpr (Nat.succ_le_succ inside)

theorem inMemory_word {a : Word} (inside : a.toNat + 2 ≤ 0xFFFF) : inMemory a 3 = true :=
  (inMemory_iff a 3).mpr (Nat.succ_le_succ inside)

theorem not_inMemory_byte {a : Word} (outside : 0xFFFF < a.toNat) : ¬ inMemory a 1 = true := fun inside =>
  absurd ((inMemory_iff a 1).mp inside) (Nat.not_le.mpr (Nat.succ_lt_succ outside))

theorem not_inMemory_word {a : Word} (outside : 0xFFFF < a.toNat + 2) : ¬ inMemory a 3 = true := fun inside =>
  absurd ((inMemory_iff a 3).mp inside) (Nat.not_le.mpr (Nat.succ_lt_succ outside))

theorem memReadByte_inside {s : State} {a : Word} (inside : a.toNat ≤ 0xFFFF) :
    memReadByte s a = .ok (s.mem.read a.toNat) := if_pos (inMemory_byte inside)

theorem memReadByte_outside {s : State} {a : Word} (outside : 0xFFFF < a.toNat) :
    memReadByte s a = .error (.memoryFault a) := if_neg (not_inMemory_byte outside)

theorem memWriteByte_inside {s : State} {a : Word} (v : Byte) (inside : a.toNat ≤ 0xFFFF) :
    memWriteByte s a v = .ok (s.setMem (s.mem.write a.toNat v)) := if_pos (inMemory_byte inside)

theorem memWriteByte_outside {s : State} {a : Word} (v : Byte) (outside : 0xFFFF < a.toNat) :
    memWriteByte s a v = .error (.memoryFault a) := if_neg (not_inMemory_byte outside)

theorem memReadWord_outside {s : State} {a : Word} (outside : 0xFFFF < a.toNat + 2) :
    memReadWord s a = .error (.memoryFault a) := if_neg (not_inMemory_word outside)

theorem memWriteWord_inside {s : State} {a : Word} (v : Word) (inside : a.toNat + 2 ≤ 0xFFFF) :
    memWriteWord s a v = .ok (s.setMem (s.mem.writeBytes a.toNat (wordBytes v))) := if_pos (inMemory_word inside)

theorem memWriteWord_outside {s : State} {a : Word} (v : Word) (outside : 0xFFFF < a.toNat + 2) :
    memWriteWord s a v = .error (.memoryFault a) := if_neg (not_inMemory_word outside)

/-! ## The bytes of a stored word -/

/-- The three bytes at an address are the base-256 digits of the word there, most significant first (R52). -/
theorem Memory.bytes_of_readWord {m : Memory} {a : Nat} {v : Word} (word : m.readWord a = v) :
    (m.read a).toNat = v.toNat / 65536 ∧ (m.read (a + 1)).toNat = v.toNat / 256 % 256 ∧
      (m.read (a + 2)).toNat = v.toNat % 256 := by
  have digits : v.toNat = 65536 * (m.read a).toNat + 256 * (m.read (a + 1)).toNat + (m.read (a + 2)).toNat := by
    rw [← word]; exact wordOfBytes_toNat _ _ _
  have bound1 := (m.read (a + 1)).isLt
  have bound2 := (m.read (a + 2)).isLt
  omega

/-- Memory `m'` is `m` with the word `v` stored big-endian at `a`: the claim of O10 and O16, of memories. -/
def Memory.StoredWord (m : Memory) (a : Nat) (v : Word) (m' : Memory) : Prop :=
  (m'.read a).toNat = v.toNat / 65536 ∧ (m'.read (a + 1)).toNat = v.toNat / 256 % 256 ∧
  (m'.read (a + 2)).toNat = v.toNat % 256 ∧
  ∀ other, other < a ∨ a + 2 < other → m'.read other = m.read other

theorem Memory.storedWord_writeWord (m : Memory) (a : Nat) (v : Word) :
    m.StoredWord a v (m.writeBytes a (wordBytes v)) := by
  obtain ⟨high, middle, low⟩ := Memory.bytes_of_readWord (Memory.readWord_writeWord m a v)
  exact ⟨high, middle, low, fun _ outside => Memory.read_writeWord_other m a v outside⟩

/-- Settles O10: both accesses make the same bounds check, and the written bytes are the digits of the word read back. -/
theorem wordWriteEffect : Obligations.WordWriteEffect := by
  intro s a v
  refine ⟨fun outside => ⟨memWriteWord_outside v outside, memReadWord_outside outside⟩, fun inside => ?_⟩
  obtain ⟨high, middle, low, others⟩ := Memory.storedWord_writeWord s.mem a.toNat v
  have readBack : memReadWord (s.setMem (s.mem.writeBytes a.toNat (wordBytes v))) a = .ok v := by
    rw [memReadWord_ok inside, State.setMem_mem, Memory.readWord_writeWord]
  exact ⟨_, memWriteWord_inside v inside, high, middle, low, others, readBack⟩

/-- Settles O11: the byte is read back from where it was written, and a word read is `wordOfBytes` of its three bytes. -/
theorem byteWriteEffect : Obligations.ByteWriteEffect := by
  refine ⟨fun s a v => ⟨fun outside => ⟨memWriteByte_outside v outside, memReadByte_outside outside⟩, fun inside => ?_⟩,
    fun m a => wordOfBytes_toNat _ _ _⟩
  have readBack : memReadByte (s.setMem (s.mem.write a.toNat v)) a = .ok v := by
    rw [memReadByte_inside inside, State.setMem_mem, Memory.read_write_same]
  exact ⟨_, memWriteByte_inside v inside, Memory.read_write s.mem a.toNat v, readBack⟩

/-- Settles O12: an access has a byte at or above 0x10000 exactly when its last byte is there. -/
theorem accessBoundsCheck : Obligations.AccessBoundsCheck := by
  intro s a v c
  have lastWord : 0xFFFF < (0xFFFE#24 : Word).toNat + 2 := by decide
  refine ⟨?_, fun below => ?_, ?_, fun below => ?_, memReadWord_outside lastWord, memWriteWord_outside v lastWord⟩
  · rintro ⟨k, one, above⟩
    have outside : 0xFFFF < a.toNat := by omega
    exact ⟨memReadByte_outside outside, memWriteByte_outside c outside⟩
  · have inside : a.toNat ≤ 0xFFFF := Nat.le_of_lt_succ (below 0 (by decide))
    exact ⟨⟨_, memReadByte_inside inside⟩, _, memWriteByte_inside c inside⟩
  · rintro ⟨k, three, above⟩
    have outside : 0xFFFF < a.toNat + 2 := by omega
    exact ⟨memReadWord_outside outside, memWriteWord_outside v outside⟩
  · have inside : a.toNat + 2 ≤ 0xFFFF := Nat.le_of_lt_succ (below 2 (by decide))
    exact ⟨⟨_, memReadWord_ok inside⟩, _, memWriteWord_inside v inside⟩

/-- Settles O34: of the parts of the state an instruction can touch, a fault touches the status alone and the others leave it. -/
theorem faultingInstructionWritesNothing : Obligations.FaultingInstructionWritesNothing := by
  intro i s _
  obtain ⟨t, executed⟩ := exec_next i s
  refine ⟨t, executed, ?_⟩
  cases exec_touches executed with
  | fault e eq => exact .inr ⟨e, eq⟩
  | regs r eq => exact .inl (by rw [eq]; rfl)
  | mem m name keeps eq => exact .inl (by rw [eq]; rfl)
  | device m d id record r touched => exact .inl (by rw [touched.eq]; rfl)

/-! ## The faults before dispatch -/

/-- An enabled step whose fetch stops takes its fault (R243, R276). -/
theorem step_of_fetch_stop {s : State} {e : Exception} (enabled : s.status.enabled = true) (found : fetch s = .stop e) :
    step s = .next (s.raise e) := by
  simp [step, enabled, found]

theorem boundaryAt_none {bounds : List DecodedInstruction} {a : Word} (absent : ∀ r ∈ bounds, r.address ≠ a) :
    boundaryAt bounds a = none :=
  List.find?_eq_none.mpr fun r member same => absent r member (beq_iff_eq.mp same)

theorem Memory.getElem?_readBytes (m : Memory) {a n k : Nat} (inside : k < n) :
    (m.readBytes a n)[k]? = some (m.read (a + k)) := by
  simp [Memory.readBytes, inside]

/-- One byte that differs from the recorded one fails the check of the recorded bytes (R277). -/
theorem recordedBytesHold_of_differs {m : Memory} {r : DecodedInstruction} {k : Nat} (inside : k < r.length)
    (differs : r.rawBytes[k]? ≠ some (m.read (r.address.toNat + k))) : recordedBytesHold m r = false := by
  refine beq_eq_false_iff_ne.mpr fun hold => differs ?_
  rw [← hold, Memory.getElem?_readBytes m inside]

theorem fetch_stop_of_absent {s : State} (absent : ∀ r ∈ s.bounds, r.address ≠ s.regs.pc) :
    fetch s = .stop (.noInstructionAtAddress s.regs.pc) := by
  rw [fetch, boundaryAt_none absent]

theorem fetch_stop_of_differs {s : State} {r : DecodedInstruction} {k : Nat}
    (found : boundaryAt s.bounds s.regs.pc = some r) (inside : k < r.length)
    (differs : r.rawBytes[k]? ≠ some (s.mem.read (s.regs.pc.toNat + k))) :
    fetch s = .stop (.selfModifiedInstruction s.regs.pc) := by
  obtain ⟨-, address⟩ := boundaryAt_some found
  rw [← address] at differs
  simp [fetch, found, recordedBytesHold_of_differs inside differs]

/-- Settles O41: in both cases the fetch stops, and the step takes the fault. -/
theorem faultsBeforeDispatch : Obligations.FaultsBeforeDispatch := fun _ enabled =>
  ⟨fun absent => step_of_fetch_stop enabled (fetch_stop_of_absent absent),
    fun _ _ found inside differs => step_of_fetch_stop enabled (fetch_stop_of_differs found inside differs)⟩

end Sys2Proof.Machine

namespace Sys2Proof.Claims

open Sys2Proof.Machine

/-! ## Accesses at the operand address -/

/-- An operand that must be an address answers the operand address (R88). -/
theorem addressOperand_of_operandAt {m : Mnemonic} {d : MemOperand} {s : State} {a : Word}
    (named : operandAt d s a = true) : addressOperand m d s = .ok a :=
  (addressOperand_memory (not_immediate_of_operandAt named)).trans (opAddr_of_operandAt named)

/-- A word store is the word write at the operand address (R123 to R125). -/
theorem storeWord_of_operandAt {m : Mnemonic} {d : MemOperand} {v : Word} {s : State} {a : Word}
    (named : operandAt d s a = true) : storeWord m d v s = complete s (memWriteWord s a v) := by
  rw [storeWord, storeAddr, addressOperand_of_operandAt named]
  rfl

/-- A byte store is the byte write of A[7:0] at the operand address (R126). -/
theorem storeLowByte_of_operandAt {d : MemOperand} {s : State} {a : Word} (named : operandAt d s a = true) :
    storeLowByte d s = complete s (memWriteByte s a (s.regs.a.extractLsb' 0 8)) := by
  rw [storeLowByte, storeAddr, addressOperand_of_operandAt named]
  rfl

/-- Settles O16: all six are `storeWord`, each of its register. -/
theorem wordStoreResult : Obligations.WordStoreResult := by
  intro d s a named inside
  have stores (m : Mnemonic) (v : Word) :
      storeWord m d v s = .next (s.setMem (s.mem.writeBytes a.toNat (wordBytes v))) := by
    rw [storeWord_of_operandAt named, memWriteWord_inside v inside, complete_ok]
  have stored (v : Word) := Memory.storedWord_writeWord s.mem a.toNat v
  exact ⟨⟨_, stored _, stores .sta _, stores .sta _⟩, ⟨_, stored _, stores .stl _, stores .stl _⟩,
    ⟨_, stored _, stores .stx _, stores .stx _⟩⟩

/-! ## Operand accesses outside memory -/

theorem wordOperand_outside {d : MemOperand} {s : State} {a : Word} (named : operandAt d s a = true)
    (outside : 0xFFFF < a.toNat + 2) : wordOperand d s = .error (.memoryFault a) := by
  rw [wordOperand_memory (not_immediate_of_operandAt named), opAddr_of_operandAt named]
  exact memReadWord_outside outside

theorem byteOperand_outside {d : MemOperand} {s : State} {a : Word} (named : operandAt d s a = true)
    (outside : 0xFFFF < a.toNat) : byteOperand d s = .error (.memoryFault a) := by
  rw [byteOperand_memory (not_immediate_of_operandAt named), opAddr_of_operandAt named]
  exact memReadByte_outside outside

theorem deviceId_outside {m : Mnemonic} {d : MemOperand} {s : State} {a : Word} (named : operandAt d s a = true)
    (outside : 0xFFFF < a.toNat) : deviceId m d s = .error (.memoryFault a) := by
  rw [deviceId, addressOperand_of_operandAt named]
  exact memReadByte_outside outside

/-- Settles O32: the operand of a load, a comparison or a device instruction does not resolve, and the write of a store does not
complete; the fault is the same. -/
theorem operandFault : Obligations.OperandFault := by
  intro d s a named
  refine ⟨fun outside => ?_, fun outside => ?_⟩
  · have loads (put : State → Word → State) : loadWord put d s = .next (s.raise (.memoryFault a)) := by
      rw [loadWord, wordOperand_outside named outside]; rfl
    have compares : compareA d s = .next (s.raise (.memoryFault a)) := by
      rw [compareA, wordOperand_outside named outside]; rfl
    have stores (m : Mnemonic) (v : Word) : storeWord m d v s = .next (s.raise (.memoryFault a)) := by
      rw [storeWord_of_operandAt named, memWriteWord_outside v outside, complete_error]
    exact ⟨loads _, loads _, loads _, loads _, compares, compares, stores .sta _, stores .sta _, stores .stl _, stores .stl _,
      stores .stx _, stores .stx _⟩
  · have loads : loadLowByte d s = .next (s.raise (.memoryFault a)) := by
      rw [loadLowByte, byteOperand_outside named outside]; rfl
    have stores : storeLowByte d s = .next (s.raise (.memoryFault a)) := by
      rw [storeLowByte_of_operandAt named, memWriteByte_outside _ outside, complete_error]
    have tests : testDevice d s = .next (s.raise (.memoryFault a)) := by
      rw [testDevice, deviceId_outside named outside]; rfl
    have reads : readDevice d s = .next (s.raise (.memoryFault a)) := by
      rw [readDevice, deviceId_outside named outside]; rfl
    have writes : writeDevice d s = .next (s.raise (.memoryFault a)) := by
      rw [writeDevice, deviceId_outside named outside]; rfl
    exact ⟨loads, loads, stores, stores, tests, tests, reads, reads, writes, writes⟩

end Sys2Proof.Claims
end

section
/-!
PROOFS. The decoder and the encoder undo each other (O1, O2); what decodes, written out by format, gives its length (O4), the
bits that select nothing (O5), its record (O3) and the words of O6.
-/

namespace Sys2Proof.Laws

open Sys2Proof.Machine

/-! ## One equation of the decoder for each format -/

theorem decode_one {b0 : Byte} {i : Instr} (row : opcodeRow (opcodeOf b0) = some (.one i)) (rest : List Byte) :
    decode (b0 :: rest) = .ok (i, rest) := by
  simp [decode, row]

theorem decode_two {b0 : Byte} {make : RegField → RegField → Instr} (row : opcodeRow (opcodeOf b0) = some (.two make))
    (b1 : Byte) (rest : List Byte) :
    decode (b0 :: b1 :: rest) = .ok (make (b1.extractLsb' 4 4) (b1.extractLsb' 0 4), rest) := by
  simp [decode, row]

theorem decode_three {b0 b1 : Byte} {make3 make4 : MemOperand → Instr}
    (row : opcodeRow (opcodeOf b0) = some (.threeFour make3 make4)) (short : eBit b1 = false) (b2 : Byte)
    (rest : List Byte) :
    decode (b0 :: b1 :: b2 :: rest) = .ok (make3 (memOperandOf b0 b1 (.disp12 (disp12Of b1 b2))), rest) := by
  simp [decode, row, short]

theorem decode_four {b0 b1 : Byte} {make3 make4 : MemOperand → Instr}
    (row : opcodeRow (opcodeOf b0) = some (.threeFour make3 make4)) (long : eBit b1 = true) (b2 b3 : Byte)
    (rest : List Byte) :
    decode (b0 :: b1 :: b2 :: b3 :: rest) = .ok (make4 (memOperandOf b0 b1 (.addr20 (addr20Of b1 b2 b3))), rest) := by
  simp [decode, row, long]

/-! ## One equation of the encoder for each shape of operands -/

theorem encode_none {i : Instr} (operands : i.operands = .none) : encode i = [i.opcode] := by
  simp [encode, operands]

theorem encode_regs {i : Instr} {r1 r2 : RegField} (operands : i.operands = .regs r1 r2) :
    encode i = [i.opcode, r1 ++ r2] := by
  simp [encode, operands]

theorem encode_disp12 {i : Instr} {d : MemOperand} {v : BitVec 12} (operands : i.operands = .mem d)
    (field : d.field = .disp12 v) :
    encode i = [encodeByte0 i.opcode d, encodeByte1 d (v.extractLsb' 8 4), v.extractLsb' 0 8] := by
  simp [encode, operands, field]

theorem encode_addr20 {i : Instr} {d : MemOperand} {v : BitVec 20} (operands : i.operands = .mem d)
    (field : d.field = .addr20 v) :
    encode i =
      [encodeByte0 i.opcode d, encodeByte1 d (v.extractLsb' 16 4), v.extractLsb' 8 8, v.extractLsb' 0 8] := by
  simp [encode, operands, field]

/-! ## From an instruction to its row -/

/-- The row makes the instruction from its operands (R72, R93). -/
inductive Makes (i : Instr) : OpcodeRow → Prop where
  | one (operands : i.operands = .none) : Makes i (.one i)
  | two {make : RegField → RegField → Instr} {r1 r2 : RegField} (operands : i.operands = .regs r1 r2)
      (made : make r1 r2 = i) : Makes i (.two make)
  | three {make3 make4 : MemOperand → Instr} {d : MemOperand} (format : i.format = .three) (operands : i.operands = .mem d)
      (made : make3 d = i) : Makes i (.threeFour make3 make4)
  | four {make3 make4 : MemOperand → Instr} {d : MemOperand} (format : i.format = .four) (operands : i.operands = .mem d)
      (made : make4 d = i) : Makes i (.threeFour make3 make4)

/-- The opcode map sends an instruction's opcode to the row that makes it (R93). -/
theorem opcodeRow_opcode (i : Instr) : ∃ row, opcodeRow i.opcode = some row ∧ Makes i row := by
  cases i with
  | float | fix | norm | sio | hio | tio => exact ⟨_, rfl, .one rfl⟩
  | addr r1 r2 | subr r1 r2 | mulr r1 r2 | divr r1 r2 | compr r1 r2 | shiftl r1 r2 | shiftr r1 r2 | rmo r1 r2
  | svc r1 r2 | clear r1 r2 | tixr r1 r2 => exact ⟨_, rfl, .two rfl rfl⟩
  | ldaE d | ldxE d | ldlE d | staE d | stxE d | stlE d | addE d | subE d | mulE d | divE d | compE d | tixE d | jeqE d
  | jgtE d | jltE d | jE d | andE d | orE d | jsubE d | rsubE d | ldchE d | stchE d | addfE d | subfE d | mulfE d | divfE d
  | ldbE d | ldsE d | ldfE d | ldtE d | stbE d | stsE d | stfE d | sttE d | compfE d | lpsE d | stiE d | rdE d | wdE d | tdE d
  | stswE d | sskE d | none8CE d | noneBCE d | noneCCE d | noneE4E d | noneFCE d => exact ⟨_, rfl, .four rfl rfl rfl⟩
  | _ => exact ⟨_, rfl, .three rfl rfl rfl⟩

/-- An opcode of the map has its two low bits clear (R71, R93). -/
theorem opcodeOf_of_opcodeRow {op : Byte} {row : OpcodeRow} (found : opcodeRow op = some row) : opcodeOf op = op := by
  have all : ∀ op, (opcodeRow op).isSome = true → opcodeOf op = op := by decide
  exact all op (by simp [found])

/-! ## The bytes of a format 3/4 encoding, taken apart and put together -/

/-- The operand is read back from the bytes that carry it (R77, R78). -/
theorem memOperandOf_encode {op : Byte} (d : MemOperand) (top : BitVec 4) (clean : opcodeOf op = op) :
    memOperandOf (encodeByte0 op d) (encodeByte1 d top) d.field = d := by
  obtain ⟨-, n, i⟩ := encodeByte0_pieces op d clean
  obtain ⟨x, b, p, -, -⟩ := encodeByte1_pieces d top
  rw [memOperandOf, n, i, x, b, p]

theorem disp12Of_encode (d : MemOperand) (v : BitVec 12) :
    disp12Of (encodeByte1 d (v.extractLsb' 8 4)) (v.extractLsb' 0 8) = v := by
  obtain ⟨-, -, -, -, top⟩ := encodeByte1_pieces d (v.extractLsb' 8 4)
  rw [disp12Of, top, disp12_split]

theorem addr20Of_encode (d : MemOperand) (v : BitVec 20) :
    addr20Of (encodeByte1 d (v.extractLsb' 16 4)) (v.extractLsb' 8 8) (v.extractLsb' 0 8) = v := by
  obtain ⟨-, -, -, -, top⟩ := encodeByte1_pieces d (v.extractLsb' 16 4)
  rw [addr20Of, top, addr20_split]

/-- byte_0 is its opcode with its n and i (R71, R77). -/
theorem encodeByte0_memOperandOf (b0 b1 : Byte) (field : AddressField) :
    encodeByte0 (opcodeOf b0) (memOperandOf b0 b1 field) = b0 := by
  have all : ∀ b : Byte,
      (opcodeOf b).extractLsb' 2 6 ++ (BitVec.ofBool (b.getLsbD 1) ++ BitVec.ofBool (b.getLsbD 0) : BitVec 2) = b := by
    decide
  exact all b0

/-- byte_1 is its x, b, p and e with its four low bits (R77, R78). -/
theorem encodeByte1_memOperandOf {b0 b1 : Byte} {field : AddressField} (e : (memOperandOf b0 b1 field).e = eBit b1) :
    encodeByte1 (memOperandOf b0 b1 field) (b1.extractLsb' 0 4) = b1 := by
  have all : ∀ b : Byte,
      (BitVec.ofBool (b.getLsbD 7) ++ BitVec.ofBool (b.getLsbD 6) ++ BitVec.ofBool (b.getLsbD 5) ++
        BitVec.ofBool (eBit b) : BitVec 4) ++ b.extractLsb' 0 4 = b := by decide
  rw [encodeByte1, e]
  exact all b1

/-- A byte is its two nibbles (R76). -/
theorem nibbles (b : Byte) : b.extractLsb' 4 4 ++ b.extractLsb' 0 4 = b := by
  revert b; decide

theorem nibbles_append (r1 r2 : RegField) :
    (r1 ++ r2 : Byte).extractLsb' 4 4 = r1 ∧ (r1 ++ r2 : Byte).extractLsb' 0 4 = r2 :=
  ⟨BitVec.extractLsb'_append_eq_left, BitVec.extractLsb'_append_eq_right⟩

/-- Settles O1: the opcode leads to the row that makes the instruction, and each byte of the encoding gives back its part of the
operands. -/
theorem decodeOfEncode : Obligations.DecodeOfEncode := by
  intro i rest wf
  obtain ⟨row, found, makes⟩ := opcodeRow_opcode i
  have clean : opcodeOf i.opcode = i.opcode := opcodeOf_of_opcodeRow found
  have row0 (d : MemOperand) : opcodeRow (opcodeOf (encodeByte0 i.opcode d)) = some row := by
    obtain ⟨opcode, -, -⟩ := encodeByte0_pieces i.opcode d clean
    rw [opcode, found]
  cases makes with
  | one operands =>
    rw [encode_none operands]
    exact decode_one (by rw [clean, found]) rest
  | @two make r1 r2 operands made =>
    rw [encode_regs operands, List.cons_append, List.cons_append, decode_two (by rw [clean, found])]
    obtain ⟨high, low⟩ := nibbles_append r1 r2
    rw [high, low, made, List.nil_append]
  | @three make3 make4 d format operands made =>
    simp only [Instr.wellFormed, format, operands, beq_iff_eq] at wf
    obtain ⟨v, field⟩ := memOperand_format_three wf
    obtain ⟨-, -, -, e, -⟩ := encodeByte1_pieces d (v.extractLsb' 8 4)
    have short : eBit (encodeByte1 d (v.extractLsb' 8 4)) = false := by simp [e, MemOperand.e, field]
    rw [encode_disp12 operands field]
    simp only [List.cons_append, List.nil_append]
    rw [decode_three (row0 d) short, disp12Of_encode, ← field, memOperandOf_encode d _ clean, made]
  | @four make3 make4 d format operands made =>
    simp only [Instr.wellFormed, format, operands, beq_iff_eq] at wf
    obtain ⟨v, field⟩ := memOperand_format_four wf
    obtain ⟨-, -, -, e, -⟩ := encodeByte1_pieces d (v.extractLsb' 16 4)
    have long : eBit (encodeByte1 d (v.extractLsb' 16 4)) = true := by simp [e, MemOperand.e, field]
    rw [encode_addr20 operands field]
    simp only [List.cons_append, List.nil_append]
    rw [decode_four (row0 d) long, addr20Of_encode, ← field, memOperandOf_encode d _ clean, made]

/-! ## What decodes, by its format -/

/-- An instruction of each format, with its operands and the bytes `tail` after byte_0 it is read from (R71 to R78). -/
inductive ReadFrom (b0 : Byte) (i : Instr) (rest : List Byte) : (tail : List Byte) → Prop where
  | one (format : i.format = .one) (operands : i.operands = .none) : ReadFrom b0 i rest rest
  | two (b1 : Byte) (format : i.format = .two) (operands : i.operands = .regs (b1.extractLsb' 4 4) (b1.extractLsb' 0 4)) :
      ReadFrom b0 i rest (b1 :: rest)
  | three (b1 b2 : Byte) (short : eBit b1 = false) (format : i.format = .three)
      (operands : i.operands = .mem (memOperandOf b0 b1 (.disp12 (disp12Of b1 b2)))) : ReadFrom b0 i rest (b1 :: b2 :: rest)
  | four (b1 b2 b3 : Byte) (long : eBit b1 = true) (format : i.format = .four)
      (operands : i.operands = .mem (memOperandOf b0 b1 (.addr20 (addr20Of b1 b2 b3)))) :
      ReadFrom b0 i rest (b1 :: b2 :: b3 :: rest)

/-- What decodes carries the opcode of byte_0, and the format and the operands of its bytes. -/
theorem readFrom_of_decode {b0 : Byte} {tail rest : List Byte} {i : Instr} (decoded : decode (b0 :: tail) = .ok (i, rest)) :
    i.opcode = opcodeOf b0 ∧ ReadFrom b0 i rest tail := by
  obtain ⟨b0', tail', eq, found⟩ := decode_cases decoded
  obtain ⟨rfl, rfl⟩ := List.cons.inj eq
  rcases found with ⟨row, rfl⟩ | ⟨make, b1, row, rfl, rfl⟩ | ⟨make3, make4, b1, b2, row, short, rfl, rfl⟩ |
    ⟨make3, make4, b1, b2, b3, row, long, rfl, rfl⟩
  · obtain ⟨opcode, format, operands⟩ : RowFits _ (.one i) := opcodeRow_fits row
    exact ⟨opcode, .one format operands⟩
  · have fits : RowFits _ (.two make) := opcodeRow_fits row
    obtain ⟨opcode, format, operands⟩ := fits (b1.extractLsb' 4 4) (b1.extractLsb' 0 4)
    exact ⟨opcode, .two b1 format operands⟩
  · have fits : RowFits _ (.threeFour make3 make4) := opcodeRow_fits row
    obtain ⟨⟨opcode, format, operands⟩, -⟩ := fits (memOperandOf b0 b1 (.disp12 (disp12Of b1 b2)))
    exact ⟨opcode, .three b1 b2 short format operands⟩
  · have fits : RowFits _ (.threeFour make3 make4) := opcodeRow_fits row
    obtain ⟨-, opcode, format, operands⟩ := fits (memOperandOf b0 b1 (.addr20 (addr20Of b1 b2 b3)))
    exact ⟨opcode, .four b1 b2 b3 long format operands⟩

/-- The bytes are those of the instruction, as many as its format says, and the rest (R74). -/
theorem ReadFrom.length {b0 : Byte} {i : Instr} {rest tail : List Byte} (read : ReadFrom b0 i rest tail) :
    (b0 :: tail).length = i.length + rest.length := by
  cases read with
  | one format | two _ format | three _ _ _ format | four _ _ _ _ format =>
    simp only [Instr.length, format, Format.length, List.length_cons]
    omega

theorem ReadFrom.wellFormed {b0 : Byte} {i : Instr} {rest tail : List Byte} (read : ReadFrom b0 i rest tail) :
    i.wellFormed = true := by
  cases read with
  | one format operands | two _ format operands | three _ _ _ format operands | four _ _ _ _ format operands =>
    simp [Instr.wellFormed, format, operands, memOperandOf, MemOperand.format]

theorem decode_nil_ne_ok {i : Instr} {rest : List Byte} : decode [] ≠ .ok (i, rest) := by
  intro decoded; cases decoded

/-- What decodes uses as many bytes as its format says (R74). -/
theorem length_of_decode {bytes rest : List Byte} {i : Instr} (decoded : decode bytes = .ok (i, rest)) :
    bytes.length = i.length + rest.length := by
  cases bytes with
  | nil => exact absurd decoded decode_nil_ne_ok
  | cons b0 tail =>
    obtain ⟨-, read⟩ := readFrom_of_decode decoded
    exact read.length

/-- The encoding of a format 3 instruction is the bytes it was read from (R77). -/
theorem encode_of_read_three {b0 b1 b2 : Byte} {i : Instr} (opcode : i.opcode = opcodeOf b0) (short : eBit b1 = false)
    (operands : i.operands = .mem (memOperandOf b0 b1 (.disp12 (disp12Of b1 b2)))) : encode i = [b0, b1, b2] := by
  rw [encode_disp12 operands rfl, opcode, encodeByte0_memOperandOf, disp12Of, BitVec.extractLsb'_append_eq_left,
    BitVec.extractLsb'_append_eq_right, encodeByte1_memOperandOf (by rw [short]; rfl)]

/-- The encoding of a format 4 instruction is the bytes it was read from (R78). -/
theorem encode_of_read_four {b0 b1 b2 b3 : Byte} {i : Instr} (opcode : i.opcode = opcodeOf b0) (long : eBit b1 = true)
    (operands : i.operands = .mem (memOperandOf b0 b1 (.addr20 (addr20Of b1 b2 b3)))) : encode i = [b0, b1, b2, b3] := by
  have middle : (addr20Of b1 b2 b3).extractLsb' 8 8 = b2 := by
    rw [addr20Of, BitVec.extractLsb'_append_eq_of_add_le (by decide), BitVec.extractLsb'_append_eq_left]
  have low : (addr20Of b1 b2 b3).extractLsb' 0 8 = b3 := by
    rw [addr20Of, BitVec.extractLsb'_append_eq_of_add_le (by decide), BitVec.extractLsb'_append_eq_right]
  have high : (addr20Of b1 b2 b3).extractLsb' 16 4 = b1.extractLsb' 0 4 := BitVec.extractLsb'_append_eq_left
  rw [encode_addr20 operands rfl, opcode, encodeByte0_memOperandOf, high, middle, low,
    encodeByte1_memOperandOf (by rw [long]; rfl)]

/-- Settles O2: format by format, the encoding of what was read is the bytes it was read from, byte_0 masked in formats 1 and
2. -/
theorem encodeOfDecode : Obligations.EncodeOfDecode := by
  intro bytes rest i decoded
  cases bytes with
  | nil => exact absurd decoded decode_nil_ne_ok
  | cons b0 tail =>
    obtain ⟨opcode, read⟩ := readFrom_of_decode decoded
    refine ⟨read.wellFormed, ?_⟩
    cases read with
    | one format operands =>
      exact ⟨[b0], rfl, by simp [Instr.length, format, Format.length], by simp [encode_none operands, format, opcode]⟩
    | two b1 format operands =>
      exact ⟨[b0, b1], rfl, by simp [Instr.length, format, Format.length],
        by simp [encode_regs operands, format, opcode, nibbles]⟩
    | three b1 b2 short format operands =>
      exact ⟨[b0, b1, b2], rfl, by simp [Instr.length, format, Format.length],
        by simp [encode_of_read_three opcode short operands, format]⟩
    | four b1 b2 b3 long format operands =>
      exact ⟨[b0, b1, b2, b3], rfl, by simp [Instr.length, format, Format.length],
        by simp [encode_of_read_four opcode long operands, format]⟩

/-! ## Lengths and formats -/

/-- The format depends on byte_0 through its opcode, and on byte_1 only where it is 3 or 4 (R72, R73). -/
theorem formatOf_congr {b0 c0 : Byte} (same : opcodeOf b0 = opcodeOf c0) (b1 : Byte) : formatOf b0 b1 = formatOf c0 b1 := by
  rw [formatOf, formatOf, same]

theorem formatOf_one {b0 : Byte} {i : Instr} (row : opcodeRow (opcodeOf b0) = some (.one i)) (b1 : Byte) :
    formatOf b0 b1 = .one := by
  rw [formatOf, row]

theorem formatOf_two {b0 : Byte} {make : RegField → RegField → Instr} (row : opcodeRow (opcodeOf b0) = some (.two make))
    (b1 : Byte) : formatOf b0 b1 = .two := by
  rw [formatOf, row]

theorem formatOf_threeFour {b0 : Byte} {make3 make4 : MemOperand → Instr}
    (row : opcodeRow (opcodeOf b0) = some (.threeFour make3 make4)) (b1 : Byte) :
    formatOf b0 b1 = if eBit b1 then .four else .three := by
  rw [formatOf, row]

/-- The three classes of byte_0 (R72). -/
theorem opcodeRow_cases (b0 : Byte) :
    (∃ i, opcodeRow (opcodeOf b0) = some (.one i)) ∨ (∃ make, opcodeRow (opcodeOf b0) = some (.two make)) ∨
      ∃ make3 make4, opcodeRow (opcodeOf b0) = some (.threeFour make3 make4) := by
  obtain ⟨row, found⟩ := Option.isSome_iff_exists.mp (opcodeRow_total b0)
  cases row with
  | one i => exact .inl ⟨i, found⟩
  | two make => exact .inr (.inl ⟨make, found⟩)
  | threeFour make3 make4 => exact .inr (.inr ⟨make3, make4, found⟩)

theorem formatOf_byte0_alone {b0 b1 : Byte} (fixed : formatOf b0 b1 = .one ∨ formatOf b0 b1 = .two) (c1 : Byte) :
    formatOf b0 c1 = formatOf b0 b1 := by
  rcases opcodeRow_cases b0 with ⟨i, row⟩ | ⟨make, row⟩ | ⟨make3, make4, row⟩
  · rw [formatOf_one row, formatOf_one row]
  · rw [formatOf_two row, formatOf_two row]
  · rw [formatOf_threeFour row] at fixed
    cases e : eBit b1 <;> simp [e] at fixed

/-- Settles O4: the length of what decodes, the format its two bytes tell, and the dispatch, which adds that length to PC. -/
theorem lengthEqualsFormatNumber : Obligations.LengthEqualsFormatNumber := by
  refine ⟨fun bytes rest i decoded => ⟨length_of_decode decoded, rfl, ?_⟩, fun b0 b1 => formatOf_byte0_alone, fun _ _ => rfl⟩
  rintro b0 b1 tail rfl
  have format : i.format = formatOf b0 ((b1 :: tail).headD b1) := format_of_decode decoded
  exact format

/-- Bytes whose first bytes have one opcode, and which both decode, decode to instructions of one row (R71). -/
theorem decode_agree {b0 c0 : Byte} {tail rest rest' : List Byte} {i j : Instr} (same : opcodeOf b0 = opcodeOf c0)
    (decoded : decode (b0 :: tail) = .ok (i, rest)) (decoded' : decode (c0 :: tail) = .ok (j, rest')) :
    j.opcode = i.opcode ∧ j.format = i.format ∧ j.mnemonic = i.mnemonic := by
  obtain ⟨opcode, -⟩ := readFrom_of_decode decoded
  obtain ⟨opcode', -⟩ := readFrom_of_decode decoded'
  have opcodes : j.opcode = i.opcode := by rw [opcode', opcode, same]
  have formats : j.format = i.format := by
    rw [format_of_decode (c := 0#8) decoded', format_of_decode (c := 0#8) decoded, formatOf_congr same]
  exact ⟨opcodes, formats, congrArg Mnemonic.ofOpcode opcodes⟩

/-- Bytes that decode do so with another byte_0 of the same opcode; in formats 1 and 2 to the same instruction (R71). -/
theorem decode_same_opcode {b0 c0 : Byte} {tail rest : List Byte} {i : Instr} (same : opcodeOf b0 = opcodeOf c0)
    (decoded : decode (b0 :: tail) = .ok (i, rest)) :
    ∃ j, decode (c0 :: tail) = .ok (j, rest) ∧ (i.format = .one ∨ i.format = .two → j = i) := by
  obtain ⟨b0', tail', eq, found⟩ := decode_cases decoded
  obtain ⟨rfl, rfl⟩ := List.cons.inj eq
  rw [same] at found
  rcases found with ⟨row, rfl⟩ | ⟨make, b1, row, rfl, rfl⟩ | ⟨make3, make4, b1, b2, row, short, rfl, rfl⟩ |
    ⟨make3, make4, b1, b2, b3, row, long, rfl, rfl⟩
  · exact ⟨_, decode_one row tail, fun _ => rfl⟩
  · exact ⟨_, decode_two row b1 rest, fun _ => rfl⟩
  · obtain ⟨⟨-, format, -⟩, -⟩ := (show RowFits _ (.threeFour make3 make4) from opcodeRow_fits row)
      (memOperandOf b0 b1 (.disp12 (disp12Of b1 b2)))
    exact ⟨_, decode_three row short b2 rest, by simp [format]⟩
  · obtain ⟨-, -, format, -⟩ := (show RowFits _ (.threeFour make3 make4) from opcodeRow_fits row)
      (memOperandOf b0 b1 (.addr20 (addr20Of b1 b2 b3)))
    exact ⟨_, decode_four row long b2 b3 rest, by simp [format]⟩

/-- Settles O5: the decoder selects the instruction's row by the opcode alone; n and i, which are those bits in formats 3 and 4,
are operands. -/
theorem lowBitsSelectNothing : Obligations.LowBitsSelectNothing := by
  intro b0 c0 tail rest i same decoded
  obtain ⟨opcode, -⟩ := readFrom_of_decode decoded
  obtain ⟨j, decoded', fixed⟩ := decode_same_opcode same decoded
  obtain ⟨opcodes, formats, mnemonics⟩ := decode_agree same decoded decoded'
  exact ⟨opcode, j, decoded', opcodes, formats, mnemonics, fixed⟩

/-! ## Totality and the record -/

/-- Bytes as many as the format of the first two says decode (R91). -/
theorem decode_total {b0 : Byte} {tail : List Byte}
    (long : (formatOf b0 (tail.headD 0#8)).length ≤ tail.length + 1) : ∃ i rest, decode (b0 :: tail) = .ok (i, rest) := by
  rcases opcodeRow_cases b0 with ⟨i, row⟩ | ⟨make, row⟩ | ⟨make3, make4, row⟩
  · exact ⟨i, tail, decode_one row tail⟩
  · rw [formatOf_two row] at long
    obtain ⟨b1, rest, rfl⟩ := List.exists_cons_of_length_pos (l := tail) (Nat.le_of_succ_le_succ long)
    exact ⟨_, rest, decode_two row b1 rest⟩
  · rw [formatOf_threeFour row] at long
    cases e : eBit (tail.headD 0#8) with
    | false =>
      rw [e, if_neg Bool.false_ne_true] at long
      match tail with
      | [] | [_] => simp [Format.length] at long
      | b1 :: b2 :: rest => exact ⟨_, rest, decode_three row e b2 rest⟩
    | true =>
      rw [e, if_pos rfl] at long
      match tail with
      | [] | [_] | [_, _] => simp [Format.length] at long
      | b1 :: b2 :: b3 :: rest => exact ⟨_, rest, decode_four row e b2 b3 rest⟩

/-- The flags of what decodes, by its format (R77 to R79). -/
theorem ReadFrom.flags_absent {b0 : Byte} {i : Instr} {rest tail : List Byte} (read : ReadFrom b0 i rest tail)
    (format : i.format = .one ∨ i.format = .two) : i.flags = ⟨false, false, false, false, false, false⟩ := by
  cases read with
  | one _ operands | two _ _ operands => simp [Instr.flags, operands]
  | three _ _ _ other | four _ _ _ _ other => simp [other] at format

theorem ReadFrom.flags_bits {b0 b1 : Byte} {i : Instr} {rest tail : List Byte} (read : ReadFrom b0 i rest (b1 :: tail))
    (format : i.format = .three ∨ i.format = .four) :
    i.flags = ⟨b0.getLsbD 1, b0.getLsbD 0, b1.getLsbD 7, b1.getLsbD 6, b1.getLsbD 5, eBit b1⟩ := by
  cases read with
  | one other | two _ other => simp [other] at format
  | three _ _ e _ operands | four _ _ _ e _ operands => rw [Instr.flags, operands, e]; rfl

/-- The record of bytes that decode (R91). -/
theorem recordOf_of_decode {bytes rest : List Byte} {i : Instr} (a : Word) (decoded : decode bytes = .ok (i, rest)) :
    recordOf a bytes = .ok ⟨a, bytes.take i.length, i.mnemonic, i.opcode, i.format, i.flags⟩ := by
  rw [recordOf, decoded]

/-- A record is that of bytes that decode, and holds its instruction's flags and format (R91). -/
theorem decode_of_recordOf {a : Word} {bytes : List Byte} {r : DecodedInstruction} (found : recordOf a bytes = .ok r) :
    ∃ i rest, decode bytes = .ok (i, rest) ∧ r = ⟨a, bytes.take i.length, i.mnemonic, i.opcode, i.format, i.flags⟩ := by
  cases decoded : decode bytes with
  | error e => rw [recordOf, decoded] at found; cases found
  | ok read =>
    obtain ⟨i, rest⟩ := read
    rw [recordOf_of_decode a decoded] at found
    exact ⟨i, rest, rfl, (Except.ok.inj found).symm⟩

/-- Settles O3: long enough bytes decode, the record repeats what the instruction says, and no step changes the boundary list. -/
theorem decodeIsTotal : Obligations.DecodeIsTotal := by
  refine ⟨fun a b0 tail enough alone => ?_, fun a bytes r found => ?_, fun s t => Safety.step_bounds⟩
  · have long : (formatOf b0 (tail.headD 0#8)).length ≤ tail.length + 1 := by
      cases tail with
      | nil => exact (alone rfl).le
      | cons b1 more => exact enough b1 rfl
    obtain ⟨i, rest, decoded⟩ := decode_total long
    obtain ⟨opcode, -⟩ := readFrom_of_decode decoded
    have used : i.length ≤ (b0 :: tail).length := by
      rw [length_of_decode decoded]; exact Nat.le_add_right _ _
    exact ⟨_, recordOf_of_decode a decoded, rfl, opcode, congrArg Mnemonic.ofOpcode opcode, format_of_decode decoded, rfl,
      List.length_take_of_le used⟩
  · obtain ⟨i, rest, decoded, rfl⟩ := decode_of_recordOf found
    refine ⟨fun format => ?_, ?_⟩
    · cases bytes with
      | nil => exact absurd decoded decode_nil_ne_ok
      | cons b0 tail =>
        obtain ⟨-, read⟩ := readFrom_of_decode decoded
        exact read.flags_absent format
    · rintro b0 b1 tail rfl format
      obtain ⟨-, read⟩ := readFrom_of_decode decoded
      exact read.flags_bits format

/-- Settles O6: each word by the decoder's equation for its format, evaluated at its bytes. -/
theorem writtenOutWordsDecode : Obligations.WrittenOutWordsDecode :=
  ⟨decode_three rfl rfl _ _, decode_two rfl _ _, decode_four rfl rfl _ _ _, decode_three rfl rfl _ _,
    decode_three rfl rfl _ _, decode_one rfl _, decode_three rfl rfl _ _⟩

end Sys2Proof.Laws
end

section
/-!
PROOFS. The effective address as arithmetic (O7), the addressing modes (O8), the immediate value (O9), and the decoder as a block
(O56).
-/

namespace Sys2Proof.Claims

open Sys2Proof.Machine Sys2Proof.Laws

/-! ## The effective address -/

/-- `ea0` is the address before indexing that R81 to R84 give: absolute in format 4; else PC-relative, base-relative or direct. -/
def IsBaseAddress (d : MemOperand) (pcNext rB : Word) (ea0 : Nat) : Prop :=
  (∀ v, d.field = .addr20 v → ea0 = v.toNat) ∧
  ∀ v, d.field = .disp12 v →
    (d.p = true → (ea0 : Int) = (pcNext.toNat + v.toInt) % 2 ^ 24) ∧
    (d.p = false → d.b = true → (ea0 : Int) = (rB.toNat + v.toInt) % 2 ^ 24) ∧
    (d.p = false → d.b = false → ea0 = v.toNat)

/-- Adding a displacement adds it as a signed number, modulo 2^24 (R82, R83). -/
theorem toNat_add_signExtend (w : Word) (v : BitVec 12) :
    ((w + v.signExtend 24).toNat : Int) = (w.toNat + v.toInt) % 2 ^ 24 := by
  rw [BitVec.toNat_add, BitVec.signExtend, BitVec.toNat_ofInt]
  omega

theorem isBaseAddress_baseAddress (d : MemOperand) (pcNext rB : Word) :
    IsBaseAddress d pcNext rB (baseAddress d pcNext rB).toNat := by
  refine ⟨fun v field => ?_, fun v field => ⟨fun p => ?_, fun p b => ?_, fun p b => ?_⟩⟩
  · simp only [baseAddress, field]
    exact BitVec.toNat_setWidth_of_le (by decide)
  · simp only [baseAddress, field, p, if_true]
    exact toNat_add_signExtend pcNext v
  · simp only [baseAddress, field, p, b, if_true, Bool.false_eq_true, if_false]
    exact toNat_add_signExtend rB v
  · simp only [baseAddress, field, p, b, Bool.false_eq_true, if_false]
    exact BitVec.toNat_setWidth_of_le (by decide)

theorem effAddr_toNat (d : MemOperand) (pcNext rB rX : Word) :
    (effAddr d pcNext rB rX).toNat =
      if d.x = true then ((baseAddress d pcNext rB).toNat + rX.toNat) % 2 ^ 24 else (baseAddress d pcNext rB).toNat := by
  rw [effAddr]
  split
  · exact BitVec.toNat_add _ _
  · rfl

/-- Settles O7: the executing machine's address is `EffAddr` of its PC, B and X. -/
theorem effectiveAddressArithmetic : Obligations.EffectiveAddressArithmetic := by
  intro d pcNext rB rX
  obtain ⟨absolute, relative⟩ := isBaseAddress_baseAddress d pcNext rB
  refine ⟨absolute, relative, effAddr_toNat d pcNext rB rX, fun s => ?_⟩
  obtain ⟨absolute, relative⟩ := isBaseAddress_baseAddress d s.regs.pc s.regs.b
  exact ⟨_, absolute, relative, effAddr_toNat d _ _ _⟩

/-! ## The immediate value -/

theorem immediateField_toNat (d : MemOperand) :
    (∀ v, d.field = .addr20 v → (immediateField d).toNat = v.toNat) ∧
      ∀ v, d.field = .disp12 v → (immediateField d).toNat = v.toNat := by
  constructor <;>
  · intro v field
    rw [immediateField, field]
    exact BitVec.toNat_setWidth_of_le (by decide)

/-- The machine's immediate value is its source's reading (R87). -/
theorem operandImmediate_reading :
    (∀ (d : MemOperand) (s : State), operandImmediate d s = immediateField d) ∨
      ∀ (d : MemOperand) (s : State), operandImmediate d s = operandEa d s := by
  cases source : Config.immediateValueSource with
  | field => exact .inl fun d s => by rw [operandImmediate, source, immediateValue_field]
  | target => exact .inr fun d s => by rw [operandImmediate, source, immediateValue_target]

/-- Settles O9: each reading by its equation, and both are the field when b = p = x = 0. -/
theorem immediateValueReadings : Obligations.ImmediateValueReadings := by
  refine ⟨operandImmediate_reading, immediateField_toNat, fun d s noB noP noX => immediateValue_plain _ d _ _ _ noB noP noX,
    fun d pcNext rB rX => ?_⟩
  simp only [immediateValue_field, immediateValue_target, true_and]
  obtain ⟨absolute, displacement⟩ := immediateField_toNat d
  refine ⟨absolute, displacement, fun noB noP noX => ?_⟩
  simpa using immediateValue_plain .target d pcNext rB rX noB noP noX

/-! ## The decoder's outputs -/

/-- The outputs every instruction has, the others undefined (R70). -/
def plainSignals (ia : Word) (i : Instr) : DecoderSignals :=
  { opcode := i.opcode, mnem := i.mnemonic, fmt := i.format, flags := i.flags, r1 := none, r2 := none, disp12 := none,
    addr20 := none, pcnext := ia + BitVec.ofNat 24 i.length, mode := .absent, ea := none, imm := none }

/-- The outputs of an instruction with a format 3/4 operand, but for its address field (R70, R85 to R87). -/
def operandSignals (source : ImmediateValueSource) (ia rB rX : Word) (i : Instr) (d : MemOperand) : DecoderSignals :=
  { plainSignals ia i with
    mode := addressingMode d
    ea := some (effAddr d (plainSignals ia i).pcnext rB rX)
    imm := some (immediateValue source d (effAddr d (plainSignals ia i).pcnext rB rX)) }

section
variable {source : ImmediateValueSource} {ia rB rX : Word} {bytes rest : List Byte} {i : Instr}

theorem decoderBlock_none (decoded : decode bytes = .ok (i, rest)) (operands : i.operands = .none) :
    decoderBlock source ia bytes rB rX = .ok (plainSignals ia i) := by
  simp [decoderBlock, decoded, operands, plainSignals]

theorem decoderBlock_regs {r1 r2 : RegField} (decoded : decode bytes = .ok (i, rest)) (operands : i.operands = .regs r1 r2) :
    decoderBlock source ia bytes rB rX = .ok { plainSignals ia i with r1 := some r1, r2 := some r2 } := by
  simp [decoderBlock, decoded, operands, plainSignals]

theorem decoderBlock_disp12 {d : MemOperand} {v : BitVec 12} (decoded : decode bytes = .ok (i, rest))
    (operands : i.operands = .mem d) (field : d.field = .disp12 v) :
    decoderBlock source ia bytes rB rX = .ok { operandSignals source ia rB rX i d with disp12 := some v } := by
  simp [decoderBlock, decoded, operands, field, operandSignals, plainSignals]

theorem decoderBlock_addr20 {d : MemOperand} {v : BitVec 20} (decoded : decode bytes = .ok (i, rest))
    (operands : i.operands = .mem d) (field : d.field = .addr20 v) :
    decoderBlock source ia bytes rB rX = .ok { operandSignals source ia rB rX i d with addr20 := some v } := by
  simp [decoderBlock, decoded, operands, field, operandSignals, plainSignals]

theorem decode_of_decoderBlock {sig : DecoderSignals} (found : decoderBlock source ia bytes rB rX = .ok sig) :
    ∃ i rest, decode bytes = .ok (i, rest) := by
  cases decoded : decode bytes with
  | error e => rw [decoderBlock, decoded] at found; cases found
  | ok read => exact ⟨read.1, read.2, rfl⟩

/-- The outputs of an instruction with an operand, whichever its address field. -/
theorem decoderBlock_operand {d : MemOperand} (decoded : decode bytes = .ok (i, rest)) (operands : i.operands = .mem d) :
    ∃ sig, decoderBlock source ia bytes rB rX = .ok sig ∧ sig.pcnext = ia + BitVec.ofNat 24 i.length ∧
      sig.mode = addressingMode d ∧ sig.ea = some (effAddr d sig.pcnext rB rX) ∧
      sig.imm = some (immediateValue source d (effAddr d sig.pcnext rB rX)) := by
  cases field : d.field with
  | disp12 v => exact ⟨_, decoderBlock_disp12 decoded operands field, rfl, rfl, rfl, rfl⟩
  | addr20 v => exact ⟨_, decoderBlock_addr20 decoded operands field, rfl, rfl, rfl, rfl⟩

/-- The outputs that every decoder block has, of what its bytes decode to (R70). -/
theorem decoderBlock_common (decoded : decode bytes = .ok (i, rest)) :
    ∃ sig, decoderBlock source ia bytes rB rX = .ok sig ∧ sig.opcode = i.opcode ∧ sig.mnem = i.mnemonic ∧
      sig.fmt = i.format ∧ sig.flags = i.flags ∧ sig.pcnext = ia + BitVec.ofNat 24 sig.fmt.length := by
  cases operands : i.operands with
  | none => exact ⟨_, decoderBlock_none decoded operands, rfl, rfl, rfl, rfl, rfl⟩
  | regs r1 r2 => exact ⟨_, decoderBlock_regs decoded operands, rfl, rfl, rfl, rfl, rfl⟩
  | mem d =>
    cases field : d.field with
    | disp12 v => exact ⟨_, decoderBlock_disp12 decoded operands field, rfl, rfl, rfl, rfl, rfl⟩
    | addr20 v => exact ⟨_, decoderBlock_addr20 decoded operands field, rfl, rfl, rfl, rfl, rfl⟩

end

/-! ## The nibbles and bytes of the fields, as numbers -/

theorem highNibble_toNat (b : Byte) : (b.extractLsb' 4 4).toNat = b.toNat / 16 := by
  have bound := b.isLt
  simp only [BitVec.extractLsb'_toNat, Nat.shiftRight_eq_div_pow]
  omega

theorem lowNibble_toNat (b : Byte) : (b.extractLsb' 0 4).toNat = b.toNat % 16 := by
  simp [BitVec.extractLsb'_toNat]

theorem toNat_append_byte {n : Nat} (high : BitVec n) (low : Byte) : (high ++ low).toNat = high.toNat * 256 + low.toNat := by
  rw [BitVec.toNat_append, ← Nat.shiftLeft_add_eq_or_of_lt low.isLt, Nat.shiftLeft_eq]

theorem disp12Of_toNat (b1 b2 : Byte) : (disp12Of b1 b2).toNat = b1.toNat % 16 * 256 + b2.toNat := by
  rw [disp12Of, toNat_append_byte, lowNibble_toNat]

theorem addr20Of_toNat (b1 b2 b3 : Byte) :
    (addr20Of b1 b2 b3).toNat = b1.toNat % 16 * 65536 + b2.toNat * 256 + b3.toNat := by
  have bytes : (b2 ++ b3 : BitVec 16).toNat = b2.toNat * 256 + b3.toNat := toNat_append_byte b2 b3
  rw [addr20Of, BitVec.toNat_append, ← Nat.shiftLeft_add_eq_or_of_lt (BitVec.isLt _), Nat.shiftLeft_eq, bytes,
    lowNibble_toNat]
  omega

/-! ## The outputs by format -/

section
variable {source : ImmediateValueSource} {ia rB rX : Word} {b0 : Byte} {tail rest : List Byte} {i : Instr}
  {sig : DecoderSignals}

/-- Formats 1 and 2 have no mode, address field, effective address or immediate value (R70, R79). -/
theorem outputs_without_operand (decoded : decode (b0 :: tail) = .ok (i, rest)) (read : ReadFrom b0 i rest tail)
    (found : decoderBlock source ia (b0 :: tail) rB rX = .ok sig) (format : i.format = .one ∨ i.format = .two) :
    sig.mode = .absent ∧ sig.disp12 = none ∧ sig.addr20 = none ∧ sig.ea = none ∧ sig.imm = none := by
  cases read with
  | one _ operands =>
    rw [decoderBlock_none decoded operands] at found
    cases found; exact ⟨rfl, rfl, rfl, rfl, rfl⟩
  | two _ _ operands =>
    rw [decoderBlock_regs decoded operands] at found
    cases found; exact ⟨rfl, rfl, rfl, rfl, rfl⟩
  | three _ _ _ other | four _ _ _ _ other => simp [other] at format

theorem outputs_one (decoded : decode (b0 :: tail) = .ok (i, rest)) (read : ReadFrom b0 i rest tail)
    (found : decoderBlock source ia (b0 :: tail) rB rX = .ok sig) (format : i.format = .one) :
    sig.r1 = none ∧ sig.r2 = none := by
  cases read with
  | one _ operands =>
    rw [decoderBlock_none decoded operands] at found
    cases found; exact ⟨rfl, rfl⟩
  | two _ other | three _ _ _ other | four _ _ _ _ other => simp [other] at format

/-- Format 2 has its register fields from the nibbles of byte_1 (R76). -/
theorem outputs_two {b1 : Byte} {more : List Byte} (decoded : decode (b0 :: b1 :: more) = .ok (i, rest))
    (read : ReadFrom b0 i rest (b1 :: more)) (found : decoderBlock source ia (b0 :: b1 :: more) rB rX = .ok sig)
    (format : i.format = .two) :
    ∃ r1 r2 : RegField, sig.r1 = some r1 ∧ sig.r2 = some r2 ∧ r1.toNat = b1.toNat / 16 ∧ r2.toNat = b1.toNat % 16 := by
  cases read with
  | two _ _ operands =>
    rw [decoderBlock_regs decoded operands] at found
    cases found
    exact ⟨_, _, rfl, rfl, highNibble_toNat b1, lowNibble_toNat b1⟩
  | one other | three _ _ _ other | four _ _ _ _ other => simp [other] at format

/-- Format 3 has the outputs of its operand and its displacement (R77, R82 to R87). -/
theorem outputs_three {b1 b2 : Byte} {more : List Byte} (decoded : decode (b0 :: b1 :: b2 :: more) = .ok (i, rest))
    (read : ReadFrom b0 i rest (b1 :: b2 :: more))
    (found : decoderBlock source ia (b0 :: b1 :: b2 :: more) rB rX = .ok sig) (format : i.format = .three) :
    eBit b1 = false ∧ sig = { operandSignals source ia rB rX i (memOperandOf b0 b1 (.disp12 (disp12Of b1 b2))) with
      disp12 := some (disp12Of b1 b2) } := by
  cases read with
  | three _ _ short _ operands =>
    rw [decoderBlock_disp12 decoded operands rfl] at found
    exact ⟨short, (Except.ok.inj found).symm⟩
  | one other | two _ other | four _ _ _ _ other => simp [other] at format

/-- Format 4 has the outputs of its operand and its address (R78, R81, R85 to R87). -/
theorem outputs_four {b1 b2 b3 : Byte} {more : List Byte} (decoded : decode (b0 :: b1 :: b2 :: b3 :: more) = .ok (i, rest))
    (read : ReadFrom b0 i rest (b1 :: b2 :: b3 :: more))
    (found : decoderBlock source ia (b0 :: b1 :: b2 :: b3 :: more) rB rX = .ok sig) (format : i.format = .four) :
    eBit b1 = true ∧ sig = { operandSignals source ia rB rX i (memOperandOf b0 b1 (.addr20 (addr20Of b1 b2 b3))) with
      addr20 := some (addr20Of b1 b2 b3) } := by
  cases read with
  | four _ _ _ long _ operands =>
    rw [decoderBlock_addr20 decoded operands rfl] at found
    exact ⟨long, (Except.ok.inj found).symm⟩
  | one other | two _ other | three _ _ _ other => simp [other] at format

end

/-- Settles O56: the bytes decode; the outputs are read off format by format; and those of an instruction with an operand are the
address and the value it executes with, as the dispatch puts PC at PCnext. -/
theorem decoderBlockOutputs : Obligations.DecoderBlockOutputs := by
  refine ⟨fun source ia rB rX b0 tail long => ?_, fun source ia rB rX b0 tail sig found => ?_,
    fun s bytes rest i d decoded operands => ?_⟩
  · obtain ⟨i, rest, decoded⟩ := decode_total long
    obtain ⟨opcode, -⟩ := readFrom_of_decode decoded
    obtain ⟨sig, found, sigOpcode, mnem, fmt, -, pcnext⟩ := decoderBlock_common (source := source) (ia := ia) decoded
    have format : i.format = formatOf b0 (tail.headD 0#8) := format_of_decode decoded
    exact ⟨sig, found, sigOpcode.trans opcode, mnem.trans (congrArg Mnemonic.ofOpcode opcode), fmt.trans format, pcnext⟩
  · obtain ⟨i, rest, decoded⟩ := decode_of_decoderBlock found
    obtain ⟨-, read⟩ := readFrom_of_decode decoded
    obtain ⟨sig', found', -, -, fmt, flags, -⟩ := decoderBlock_common (source := source) (ia := ia) (rB := rB) (rX := rX) decoded
    obtain rfl : sig = sig' := Except.ok.inj (found.symm.trans found')
    rw [fmt]
    refine ⟨fun format => ⟨flags.trans (read.flags_absent format), outputs_without_operand decoded read found format⟩,
      outputs_one decoded read found, ?_, ?_, ?_⟩
    · rintro format b1 more rfl
      exact outputs_two decoded read found format
    · rintro format b1 b2 more rfl
      obtain ⟨short, eq⟩ := outputs_three decoded read found format
      have bits := flags.trans (read.flags_bits (.inl format))
      rw [short] at bits
      refine ⟨disp12Of b1 b2, _, disp12Of_toNat b1 b2, rfl, bits, ?_⟩
      rw [eq]
      exact ⟨rfl, rfl, rfl, rfl, rfl, rfl, rfl⟩
    · rintro format b1 b2 b3 more rfl
      obtain ⟨long, eq⟩ := outputs_four decoded read found format
      have bits := flags.trans (read.flags_bits (.inr format))
      rw [long] at bits
      refine ⟨addr20Of b1 b2 b3, _, addr20Of_toNat b1 b2 b3, rfl, bits, ?_⟩
      rw [eq]
      exact ⟨rfl, rfl, rfl, rfl, rfl, rfl, rfl⟩
  · obtain ⟨sig, found, pcnext, -, ea, imm⟩ := decoderBlock_operand (source := Config.immediateValueSource)
      (ia := s.regs.pc) (rB := s.regs.b) (rX := s.regs.x) decoded operands
    rw [pcnext] at ea imm
    exact ⟨sig, found, pcnext, ea, imm⟩

/-! ## The addressing modes -/

theorem addressingMode_eq (d : MemOperand) :
    addressingMode d = if d.n = d.i then .simple else if d.i = true then .immediate else .indirect := by
  unfold addressingMode
  cases d.n <;> cases d.i <;> rfl

/-- A format 3/4 operand has a mode (R86). -/
theorem addressingMode_ne_absent (d : MemOperand) : addressingMode d ≠ .absent := by
  rcases addressingMode_cases d with mode | mode | mode <;> simp [mode]

/-- An operand that is not immediate is memory at the address `OpAddr` answers (R88). -/
theorem operands_of_opAddr {d : MemOperand} {s : State} {a : Word} (memory : addressingMode d ≠ .immediate)
    (address : opAddr d s = .ok a) : wordOperand d s = memReadWord s a ∧ byteOperand d s = memReadByte s a := by
  rw [wordOperand_memory memory, byteOperand_memory memory, address]
  exact ⟨rfl, rfl⟩

/-- An immediate operand is its immediate value, which is read from no memory (R87). -/
theorem operands_of_immediate {d : MemOperand} (mode : addressingMode d = .immediate) (s : State) (m : Memory) :
    wordOperand d (s.setMem m) = wordOperand d s ∧
      ∃ v, wordOperand d s = .ok v ∧ byteOperand d s = .ok (v.extractLsb' 0 8) := by
  have value (t : State) : wordOperand d t = .ok (operandImmediate d t) := wordOperand_immediate mode
  exact ⟨by rw [value, value]; rfl, _, value s, byteOperand_immediate mode⟩

/-- The decoder gives no mode exactly to what has no format 3/4 operand (R70). -/
theorem decoderBlock_mode_absent {source : ImmediateValueSource} {ia rB rX : Word} {bytes : List Byte} {sig : DecoderSignals}
    (found : decoderBlock source ia bytes rB rX = .ok sig) : sig.mode = .absent ↔ sig.fmt = .one ∨ sig.fmt = .two := by
  obtain ⟨i, rest, decoded⟩ := decode_of_decoderBlock found
  cases bytes with
  | nil => exact absurd decoded decode_nil_ne_ok
  | cons b0 tail =>
    obtain ⟨-, read⟩ := readFrom_of_decode decoded
    cases read with
    | one format operands =>
      rw [decoderBlock_none decoded operands] at found
      cases found; simp [plainSignals, format]
    | two b1 format operands =>
      rw [decoderBlock_regs decoded operands] at found
      cases found; simp [plainSignals, format]
    | three b1 b2 _ format operands =>
      rw [decoderBlock_disp12 decoded operands rfl] at found
      cases found; simp [operandSignals, plainSignals, format, addressingMode_ne_absent]
    | four b1 b2 b3 _ format operands =>
      rw [decoderBlock_addr20 decoded operands rfl] at found
      cases found; simp [operandSignals, plainSignals, format, addressingMode_ne_absent]

/-- Settles O8: mode by mode, what `OpAddr` answers and what the operand is. -/
theorem addressingModes : Obligations.AddressingModes := by
  refine ⟨addressingMode_eq, fun d s => ⟨fun simple => ?_, fun immediate => ?_, fun indirect p pointer => ?_⟩,
    fun _ _ _ _ _ _ => decoderBlock_mode_absent⟩
  · exact operands_of_opAddr (by simp [simple]) (opAddr_simple simple)
  · exact operands_of_immediate immediate s
  · exact operands_of_opAddr (by simp [indirect]) ((opAddr_indirect indirect).trans pointer)

end Sys2Proof.Claims
end

section
/-!
PROOFS. An enabled state with the invariant steps (O49), the boundary scan is sound (O51), and what a step reports (O58).
-/

namespace Sys2Proof.Machine

open Sys2Proof.Safety

/-! ## No record is undecodable -/

/-- Each record of a good boundary list is the record of its own bytes (R91, R273). -/
theorem recordOf_of_boundsOkFrom {low : Nat} {bs : List DecodedInstruction} (ok : boundsOkFrom low bs) :
    ∀ r ∈ bs, recordOf r.address r.rawBytes = .ok r := by
  induction bs generalizing low with
  | nil => simp
  | cons r rest ih =>
    obtain ⟨record, -, -, -, -, later⟩ := ok
    exact List.forall_mem_cons.mpr ⟨record, ih later⟩

/-- With a good boundary list a fetch gives an instruction or takes a fault (R276; log entry 13). -/
theorem fetch_of_boundsOk {s : State} (ok : boundsOk s.bounds) : (∃ i, fetch s = .run i) ∨ ∃ e, fetch s = .stop e := by
  cases found : boundaryAt s.bounds s.regs.pc with
  | none => exact .inr ⟨_, by rw [fetch, found]⟩
  | some r =>
    obtain ⟨member, -⟩ := boundaryAt_some found
    obtain ⟨i, rest, decoded, -⟩ := recordOf_ok (recordOf_of_boundsOkFrom ok r member)
    cases hold : recordedBytesHold s.mem r with
    | true => exact .inl ⟨i, (fetch_run_iff s i).mpr ⟨r, rest, found, hold, decoded⟩⟩
    | false => exact .inr ⟨.selfModifiedInstruction s.regs.pc, by simp [fetch, found, hold]⟩

/-- Settles O49: the fetch gives an instruction, which executes to a next state, or takes a fault, which is one. -/
theorem enabledStateSteps : Obligations.EnabledStateSteps := by
  intro s inv enabled
  rcases fetch_of_boundsOk inv.bounds with ⟨i, found⟩ | ⟨e, found⟩
  · obtain ⟨t, executed⟩ := exec_next i (dispatched s i)
    exact ⟨_, by rw [Steps, step_of_fetch_run enabled found, executed, retire_next]⟩
  · exact ⟨_, step_of_fetch_stop enabled found⟩

/-! ## The records of the scan -/

/-- The scan makes the record `r` at the address `a`: below the extent, in memory, of the bytes memory holds there (R272). -/
structure Scanned (m : Memory) (extent a : Nat) (r : DecodedInstruction) : Prop where
  below : a < extent
  fits : a + lengthAt m a ≤ Config.memSize
  found : recordOf (BitVec.ofNat 24 a) (m.readBytes a (lengthAt m a)) = .ok r

/-- Every record of a scan was made at some address (R272). -/
theorem scanned_of_mem_scanFrom {m : Memory} {extent fuel a : Nat} {r : DecodedInstruction}
    (member : r ∈ scanFrom m extent fuel a) : ∃ b, Scanned m extent b r := by
  induction fuel generalizing a with
  | zero => simp [scanFrom] at member
  | succ fuel ih =>
    by_cases below : a < extent
    · by_cases fill : m.read a = Config.fillByte
      · rw [scanFrom_fill below fill] at member
        exact ih member
      · by_cases fits : a + lengthAt m a ≤ Config.memSize
        · cases found : recordOf (BitVec.ofNat 24 a) (m.readBytes a (lengthAt m a)) with
          | ok q =>
            rw [scanFrom_record below fill fits found] at member
            rcases List.mem_cons.mp member with rfl | later
            · exact ⟨a, below, fits, found⟩
            · exact ih later
          | error e =>
            simp only [lengthAt] at fits found
            simp [scanFrom, fill, found] at member
        · rw [scanFrom_stop fill (Nat.lt_of_not_le fits)] at member
          cases member
    · rw [scanFrom_end (Nat.le_of_not_lt below)] at member
      cases member

/-- A scanned record stands at its address and holds the bytes memory holds there (R272). -/
theorem Scanned.record {m : Memory} {extent a : Nat} {r : DecodedInstruction} (scanned : Scanned m extent a r) :
    r.address.toNat = a ∧ m.readBytes a r.length = r.rawBytes := by
  obtain ⟨address, raw, length⟩ := recordOf_readBytes scanned.found
  have fits := scanned.fits
  have positive : 0 < lengthAt m a := Laws.format_length_pos _
  refine ⟨?_, by rw [length, raw]⟩
  rw [address, BitVec.toNat_ofNat]
  exact Nat.mod_eq_of_lt (by rw [Config.memSize] at fits; omega)

/-- Settles O51: the list is good as every scan's is, and each of its records was made at an address below the extent. -/
theorem boundaryScanIsSound : Obligations.BoundaryScanIsSound := by
  refine fun m extent => ⟨boundsOk_boundaryScan m extent, fun r member => ?_⟩
  obtain ⟨a, scanned⟩ := scanned_of_mem_scanFrom member
  obtain ⟨address, bytes⟩ := scanned.record
  rw [address]
  exact ⟨scanned.below, bytes⟩

/-! ## What a step reports -/

theorem faulted_eq_some_iff (st : Status) (e : Exception) : st.faulted = some e ↔ st = .haltedErr e := by
  cases st with
  | haltedErr e' => simp [Status.faulted]
  | loaded | running | haltedOk => simp [Status.faulted]

theorem halted_iff (st : Status) : st.halted = true ↔ st = .haltedOk ∨ ∃ e, st = .haltedErr e := by
  cases st with
  | haltedErr e' => simp [Status.halted]
  | loaded | running | haltedOk => simp [Status.halted]

/-- Formats 1 and 2 use no effective address (R98). -/
theorem effectiveAddressUsed_of_format {i : Instr} {s : State} (format : i.format = .one ∨ i.format = .two)
    (wf : i.wellFormed = true) : effectiveAddressUsed i s = none := by
  cases operands : i.operands with
  | none | regs r1 r2 => simp [effectiveAddressUsed, operands]
  | mem d => rcases format with format | format <;> simp [Instr.wellFormed, format, operands] at wf

/-- What is fetched is well formed (R91). -/
theorem wellFormed_of_fetch {s : State} {i : Instr} (found : fetch s = .run i) : i.wellFormed = true := by
  obtain ⟨r, rest, -, -, decoded⟩ := (fetch_run_iff s i).mp found
  obtain ⟨wf, -⟩ := Laws.encodeOfDecode r.rawBytes rest i decoded
  exact wf

theorem isRsub_iff (i : Instr) : isRsub i = true ↔ i.mnemonic = some .rsub := beq_iff_eq

theorem isRsub_eq_false {i : Instr} (other : i.mnemonic ≠ some .rsub) : isRsub i = false :=
  Bool.eq_false_iff.mpr (mt (isRsub_iff i).mp other)

/-- Settles O58: the fields one by one; the address reported is that of the instruction fetched, by its mode. -/
theorem stepResultReports : Obligations.StepResultReports := by
  intro s t stepped
  refine ⟨fun r found => found, fun absent => ?_, rfl, halted_iff t.status, faulted_eq_some_iff t.status,
    fun i d found operand other => ?_, fun i found unused => ?_, fun none => ?_⟩
  · obtain ⟨enabled, -⟩ := step_cases stepped
    have eq := step_of_fetch_stop enabled (fetch_stop_of_absent absent)
    obtain rfl : t = s.raise _ := Host.Outcome.next.inj (stepped.symm.trans eq)
    exact ⟨boundaryAt_none absent, rfl⟩
  · rw [stepResult_address_run found]
    have named := isRsub_eq_false other
    refine ⟨effectiveAddressUsed_simple operand named, fun indirect inside => ?_, fun indirect outside => ?_,
      effectiveAddressUsed_immediate operand⟩
    · rw [effectiveAddressUsed_indirect operand named indirect, memReadWord_ok inside]
      rfl
    · rw [effectiveAddressUsed_indirect operand named indirect, memReadWord_outside outside]
      rfl
  · rw [stepResult_address_run found]
    rcases unused with rsub | format
    · exact effectiveAddressUsed_rsub ((isRsub_iff i).mpr rsub)
    · exact effectiveAddressUsed_of_format format (wellFormed_of_fetch found)
  · obtain ⟨-, ⟨e, stopped, -⟩ | ⟨i, u, found, -, -⟩⟩ := step_cases stepped
    · exact stepResult_address_stop stopped
    · exact absurd found (none i)

end Sys2Proof.Machine
end

section
/-!
PROOFS. Results and frames of the loads (O14, O15), of STCH (O17), of J, JSUB and RSUB (O19, O21), and of RD and WD (O26, O27).
-/

namespace Sys2Proof.Claims

open Sys2Proof.Machine

/-! ## Loads -/

/-- A word load whose operand resolves to `v` puts it in its register (R120, R121). -/
theorem loadWord_of_wordOperand {put : State → Word → State} {d : MemOperand} {s : State} {v : Word}
    (operand : wordOperand d s = .ok v) : loadWord put d s = .next (put s v) := by
  rw [loadWord, operand]
  rfl

/-- Settles O14: all four are `loadWord`, whose operand is the word at the operand address or the immediate value. -/
theorem wordLoadResult : Obligations.WordLoadResult := by
  intro d s
  constructor
  · intro a named inside
    have loads (put : State → Word → State) := loadWord_of_wordOperand (put := put) (wordOperand_of_operandAt named inside)
    exact ⟨loads _, loads _, loads _, loads _⟩
  · intro immediate
    have loads (put : State → Word → State) := loadWord_of_wordOperand (put := put) (wordOperand_immediate (s := s) immediate)
    exact ⟨loads _, loads _, loads _, loads _⟩

/-- A with another low byte (R122). -/
theorem replaceLowByte_toNat (a : Word) (c : Byte) : (a.extractLsb' 8 16 ++ c).toNat = a.toNat / 256 * 256 + c.toNat := by
  have bound := a.isLt
  rw [toNat_append_byte]
  simp only [BitVec.extractLsb'_toNat, Nat.shiftRight_eq_div_pow]
  omega

theorem lowByte_toNat (v : Word) : (v.extractLsb' 0 8).toNat = v.toNat % 256 := by
  simp [BitVec.extractLsb'_toNat]

theorem byteOperand_of_operandAt {d : MemOperand} {s : State} {a : Word} (named : operandAt d s a = true)
    (inside : a.toNat ≤ 0xFFFF) : byteOperand d s = .ok (s.mem.read a.toNat) := by
  rw [byteOperand_memory (not_immediate_of_operandAt named), opAddr_of_operandAt named]
  exact memReadByte_inside inside

/-- LDCH whose operand resolves to `c` puts it in A[7:0] (R122). -/
theorem loadLowByte_of_byteOperand {d : MemOperand} {s : State} {c : Byte} (operand : byteOperand d s = .ok c) :
    loadLowByte d s = .next (s.setA (s.regs.a.extractLsb' 8 16 ++ c)) := by
  rw [loadLowByte, operand]
  rfl

/-- Settles O15: both formats are `loadLowByte`, whose operand is the byte at the operand address or the immediate value's low
byte. -/
theorem byteLoadResult : Obligations.ByteLoadResult := by
  intro d s
  constructor
  · intro a named inside
    have loads := loadLowByte_of_byteOperand (byteOperand_of_operandAt named inside)
    exact ⟨_, replaceLowByte_toNat _ _, loads, loads⟩
  · intro immediate
    have loads := loadLowByte_of_byteOperand (byteOperand_immediate (s := s) immediate)
    exact ⟨_, by rw [replaceLowByte_toNat, lowByte_toNat], loads, loads⟩

/-! ## STCH -/

/-- Settles O17: both formats are the byte write of A[7:0] at the operand address. -/
theorem byteStoreResult : Obligations.ByteStoreResult := by
  intro d s a named inside
  have stores : storeLowByte d s = .next (s.setMem (s.mem.write a.toNat (s.regs.a.extractLsb' 0 8))) := by
    rw [storeLowByte_of_operandAt named, memWriteByte_inside _ inside, complete_ok]
  exact ⟨_, by rw [Memory.read_write_same, lowByte_toNat], fun other differs => Memory.read_write_other s.mem _ differs,
    stores, stores⟩

/-! ## J, JSUB and RSUB -/

/-- JSUB whose operand address is `a` puts PCnext in L and `a` in PC (R144). -/
theorem jumpAndLink_of_operandAt {d : MemOperand} {s : State} {a : Word} (named : operandAt d s a = true) :
    jumpAndLink d s = .next ((s.setL s.regs.pc).setPc a) := by
  rw [jumpAndLink, jumpTarget, addressOperand_of_operandAt named]
  rfl

/-- Settles O19: J is the jump that is always taken, and JSUB resolves the same target. -/
theorem jumpResult : Obligations.JumpResult := fun _ _ _ named =>
  ⟨jumpIf_of_operandAt named true, jumpIf_of_operandAt named true, jumpAndLink_of_operandAt named,
    jumpAndLink_of_operandAt named⟩

theorem exec_rsub (d : MemOperand) (s : State) : exec (.rsub d) s = .next (s.setPc s.regs.l) := rfl

theorem exec_rsubE (d : MemOperand) (s : State) : exec (.rsubE d) s = .next (s.setPc s.regs.l) := rfl

/-- The format of RSUB is told by byte_1[4] (R73, R89). -/
theorem formatOf_rsub {b0 : Byte} (b1 : Byte) (rsub : b0 &&& 0xFC#8 = 0x4C#8) :
    formatOf b0 b1 = if b1.getLsbD 4 then .four else .three := by
  have opcode : opcodeOf b0 = 0x4C#8 := rsub
  have row : opcodeRow (opcodeOf b0) = some (.threeFour .rsub .rsubE) := by rw [opcode]; rfl
  exact Laws.formatOf_threeFour row b1

/-- The state after a step that returned to the address in L (R145, R275, R276). -/
def returned (s : State) : State :=
  { s with
    regs := { s.regs with pc := s.regs.l }
    status := if s.regs.l = 0xFFFFFF#24 then .haltedOk else .running
    steps := s.steps + 1 }

/-- The step of an instruction that does what RSUB does. -/
theorem step_returns {s : State} {i : Instr} (enabled : s.status.enabled = true) (found : fetch s = .run i)
    (returns : ∀ u, exec i u = .next (u.setPc u.regs.l)) : step s = .next (returned s) := by
  rw [step_of_fetch_run enabled found, returns, retire_next, sentinelHalt_countStep]
  simp [returned, dispatched_eq, State.setPc]

/-- Settles O21: the step of either RSUB returns to L; it is Halted(ok) at the sentinel, and else the next fetch is at L. -/
theorem returnFromSubroutineResult : Obligations.ReturnFromSubroutineResult := by
  refine ⟨fun d s => ⟨rfl, rfl, rfl, rfl⟩, fun b0 b1 => formatOf_rsub b1, fun d s enabled found => ?_⟩
  obtain ⟨i, found, rsub, returns⟩ :
      ∃ i, fetch s = .run i ∧ isRsub i = true ∧ ∀ u, exec i u = .next (u.setPc u.regs.l) := by
    rcases found with found | found
    · exact ⟨_, found, rfl, exec_rsub d⟩
    · exact ⟨_, found, rfl, exec_rsubE d⟩
  refine ⟨returned s, step_returns enabled found returns, rfl, rfl, rfl, rfl, ?_, ?_, fun away absent => ?_⟩
  · by_cases atSentinel : s.regs.l = 0xFFFFFF#24 <;> simp [returned, Status.halted, atSentinel]
  · rw [stepResult_address_run found]
    exact effectiveAddressUsed_rsub rsub
  · have running : (returned s).status = .running := if_neg away
    have stopped : fetch (returned s) = .stop (.noInstructionAtAddress s.regs.l) := by
      have absent' : boundaryAt (returned s).bounds (returned s).regs.pc = none := absent
      rw [fetch, absent']
      rfl
    exact step_of_fetch_stop (by rw [running]; rfl) stopped

/-! ## RD and WD -/

/-- A device that is available and not used in the other direction passes the checks (R161, R162). -/
theorem deviceChecked_ok {s : State} {id : Byte} {other : DeviceUse} (available : (s.device id).avail = true)
    (direction : (s.device id).used ≠ other) : deviceChecked s id other = .ok (s.device id) := by
  simp [deviceChecked, available, direction]

/-- A read that finds a byte at the cursor (R161, R165). -/
theorem devRead_byte {s : State} {id v : Byte} (available : (s.device id).avail = true)
    (direction : (s.device id).used ≠ .write) (atCursor : (s.device id).input[(s.device id).rpos]? = some v) :
    devRead s id =
      .ok ((s.setDevice id { s.device id with rpos := (s.device id).rpos + 1, used := .read }).setA (v.setWidth 24)) := by
  simp [devRead, deviceChecked_ok available direction, atCursor]

/-- A read at the end of the stream (R161). -/
theorem devRead_end {s : State} {id : Byte} (available : (s.device id).avail = true)
    (direction : (s.device id).used ≠ .write) (atEnd : (s.device id).input[(s.device id).rpos]? = none) :
    devRead s id = .ok ((s.setDevice id { s.device id with used := .read }).setA 0#24) := by
  simp only [devRead, deviceChecked_ok available direction, atEnd]

theorem devWrite_appends {s : State} {id : Byte} (v : Byte) (available : (s.device id).avail = true)
    (direction : (s.device id).used ≠ .read) :
    devWrite s id v = .ok (s.setDevice id { s.device id with out := (s.device id).out ++ [v], used := .write }) := by
  simp [devWrite, deviceChecked_ok available direction]

theorem readDevice_of_deviceAt {d : MemOperand} {s : State} {a : Word} {id : Byte} (named : deviceAt d s a id = true) :
    readDevice d s = complete s (devRead s id) := by
  rw [readDevice, deviceId_of_deviceAt named]
  rfl

theorem writeDevice_of_deviceAt {d : MemOperand} {s : State} {a : Word} {id : Byte} (named : deviceAt d s a id = true) :
    writeDevice d s = complete s (devWrite s id (s.regs.a.extractLsb' 0 8)) := by
  rw [writeDevice, deviceId_of_deviceAt named]
  rfl

/-- Settles O26: a byte at the cursor or the end of the stream; in both the read replaces one device's record and A. -/
theorem readDeviceResult : Obligations.ReadDeviceResult := by
  intro d s a id named available direction
  have others {t : State} (reads : readDevice d s = .next t) : ∀ other, other ≠ id → t.device other = s.device other :=
    fun other => exec_device_other (i := .rd d) reads rfl named
  cases atCursor : (s.device id).input[(s.device id).rpos]? with
  | some v =>
    have reads := readDevice_of_deviceAt named
    rw [devRead_byte available direction atCursor, complete_ok] at reads
    have inside : (s.device id).rpos < (s.device id).input.length := (List.getElem?_eq_some_iff.mp atCursor).1
    refine ⟨_, reads, reads, rfl, rfl, rfl, rfl, others reads, ?_, fun past => absurd inside past.not_gt⟩
    rintro _ ⟨⟩
    exact ⟨⟨v.setWidth 24, BitVec.toNat_setWidth_of_le (by decide), rfl⟩, State.device_setDevice_same s id _⟩
  | none =>
    have reads := readDevice_of_deviceAt named
    rw [devRead_end available direction atCursor, complete_ok] at reads
    refine ⟨_, reads, reads, rfl, rfl, rfl, rfl, others reads, fun v found => ?_, fun _ => ⟨rfl, ?_⟩⟩
    · cases found
    · exact State.device_setDevice_same s id _

/-- Settles O27: the write replaces one device's record. -/
theorem writeDeviceResult : Obligations.WriteDeviceResult := by
  intro d s a id named available direction
  have writes := writeDevice_of_deviceAt named
  rw [devWrite_appends _ available direction, complete_ok] at writes
  exact ⟨_, s.regs.a.extractLsb' 0 8, writes, writes, lowByte_toNat _, rfl, rfl, rfl, rfl, rfl,
    fun other => exec_device_other (i := .wd d) writes rfl named, State.device_setDevice_same s id _⟩

end Sys2Proof.Claims
end

section
/-!
PROOFS. The faults an operand takes before anything is read or written: mode IMMEDIATE where an address is needed (O29), a register
field that names no integer register (O30), a pointer word outside memory (O31).
-/

namespace Sys2Proof.Claims

open Sys2Proof.Machine

/-! ## An operand that does not resolve -/

section
variable {d : MemOperand} {s : State} {e : Exception} {m : Mnemonic}

theorem loadWord_error {put : State → Word → State} (operand : wordOperand d s = .error e) :
    loadWord put d s = .next (s.raise e) := by
  rw [loadWord, operand]; rfl

theorem loadLowByte_error (operand : byteOperand d s = .error e) : loadLowByte d s = .next (s.raise e) := by
  rw [loadLowByte, operand]; rfl

theorem compareA_error (operand : wordOperand d s = .error e) : compareA d s = .next (s.raise e) := by
  rw [compareA, operand]; rfl

theorem storeWord_error {v : Word} (address : addressOperand m d s = .error e) :
    storeWord m d v s = .next (s.raise e) := by
  rw [storeWord, storeAddr, address]; rfl

theorem storeLowByte_error (address : addressOperand .stch d s = .error e) : storeLowByte d s = .next (s.raise e) := by
  rw [storeLowByte, storeAddr, address]; rfl

theorem jumpIf_error {taken : Bool} (address : addressOperand m d s = .error e) :
    jumpIf taken m d s = .next (s.raise e) := by
  rw [jumpIf, jumpTarget, address]; rfl

theorem jumpAndLink_error (address : addressOperand .jsub d s = .error e) : jumpAndLink d s = .next (s.raise e) := by
  rw [jumpAndLink, jumpTarget, address]; rfl

theorem testDevice_error (address : addressOperand .td d s = .error e) : testDevice d s = .next (s.raise e) := by
  rw [testDevice, deviceId, address]; rfl

theorem readDevice_error (address : addressOperand .rd d s = .error e) : readDevice d s = .next (s.raise e) := by
  rw [readDevice, deviceId, address]; rfl

theorem writeDevice_error (address : addressOperand .wd d s = .error e) : writeDevice d s = .next (s.raise e) := by
  rw [writeDevice, deviceId, address]; rfl

end

/-- Settles O29: in mode IMMEDIATE no address operand resolves, so every store, jump and device instruction takes that fault. -/
theorem immediateWhereAddressIsNeeded : Obligations.ImmediateWhereAddressIsNeeded := by
  intro d s immediate
  have fault (m : Mnemonic) := addressOperand_immediate (m := m) (s := s) immediate
  have stores (m : Mnemonic) (v : Word) := storeWord_error (v := v) (fault m)
  have jumps (m : Mnemonic) (taken : Bool) := jumpIf_error (taken := taken) (fault m)
  have storesByte := storeLowByte_error (fault .stch)
  have links := jumpAndLink_error (fault .jsub)
  have tests := testDevice_error (fault .td)
  have reads := readDevice_error (fault .rd)
  have writes := writeDevice_error (fault .wd)
  exact ⟨stores .sta _, stores .sta _, stores .stl _, stores .stl _, stores .stx _, stores .stx _, storesByte, storesByte,
    jumps .j _, jumps .j _, jumps .jeq _, jumps .jeq _, jumps .jlt _, jumps .jlt _, links, links, tests, tests, reads, reads,
    writes, writes⟩

/-- Settles O31: `OpAddr` takes the fault of the pointer's read, and every operand goes through `OpAddr`. -/
theorem pointerFault : Obligations.PointerFault := by
  intro d s indirect outside
  have memory : addressingMode d ≠ .immediate := by simp [indirect]
  have pointer : opAddr d s = .error (.memoryFault (operandEa d s)) :=
    (opAddr_indirect indirect).trans (memReadWord_outside outside)
  have word : wordOperand d s = .error (.memoryFault (operandEa d s)) := by
    rw [wordOperand_memory memory, pointer]; rfl
  have byte : byteOperand d s = .error (.memoryFault (operandEa d s)) := by
    rw [byteOperand_memory memory, pointer]; rfl
  have fault (m : Mnemonic) : addressOperand m d s = .error (.memoryFault (operandEa d s)) :=
    (addressOperand_memory memory).trans pointer
  have loads (put : State → Word → State) := loadWord_error (put := put) word
  have loadsByte := loadLowByte_error byte
  have compares := compareA_error word
  have stores (m : Mnemonic) (v : Word) := storeWord_error (v := v) (fault m)
  have storesByte := storeLowByte_error (fault .stch)
  have jumps (m : Mnemonic) (taken : Bool) := jumpIf_error (taken := taken) (fault m)
  have links := jumpAndLink_error (fault .jsub)
  have tests := testDevice_error (fault .td)
  have reads := readDevice_error (fault .rd)
  have writes := writeDevice_error (fault .wd)
  exact ⟨⟨loads _, loads _, loads _, loads _, loadsByte, loadsByte, compares, compares⟩,
    ⟨stores .sta _, stores .sta _, stores .stl _, stores .stl _, stores .stx _, stores .stx _, storesByte, storesByte⟩,
    ⟨jumps .j _, jumps .j _, jumps .jeq _, jumps .jeq _, jumps .jlt _, jumps .jlt _, links, links⟩,
    tests, tests, reads, reads, writes, writes⟩

/-! ## Register fields -/

/-- 7 and 10 to 15 name no register (R22). -/
theorem regNamed_unassigned {k : RegField} (unassigned : k.toNat = 7 ∨ 10 ≤ k.toNat) : regNamed k = none := by
  have all : ∀ k : RegField, k.toNat = 7 ∨ 10 ≤ k.toNat → regNamed k = none := by decide
  exact all k unassigned

/-- A field that names no register, and F, cannot be read as an integer (R90). -/
theorem regRead_illegal {k : RegField} (s : State) (illegal : k.toNat = 6 ∨ k.toNat = 7 ∨ 10 ≤ k.toNat) :
    regRead s k = .error (.illegalRegister (s.regs.pc - 2#24) k) := by
  rcases illegal with float | unassigned
  · obtain rfl : k = 6#4 := BitVec.eq_of_toNat_eq float
    rfl
  · rw [regRead, regNamed_unassigned unassigned]
    rfl

theorem regNum_illegal {k : RegField} (s : State) (unassigned : k.toNat = 7 ∨ 10 ≤ k.toNat) :
    regNum s k = .error (.illegalRegister (s.regs.pc - 2#24) k) := by
  rw [regNum, regNamed_unassigned unassigned]
  rfl

/-- Settles O30: the field is looked up or read before anything is written, r1 before r2. -/
theorem illegalRegisterFault : Obligations.IllegalRegisterFault := by
  intro r1 r2 s
  refine ⟨fun unassigned => ?_, fun illegal => ⟨?_, ?_⟩, fun v1 value illegal => ?_⟩
  · change execClear r1 r2 s = _
    rw [execClear, regNum_illegal s unassigned]
    rfl
  · change execCompr r1 r2 s = _
    rw [execCompr, regRead_illegal s illegal]
    rfl
  · change execTixr r1 r2 s = _
    rw [execTixr, regRead_illegal s illegal]
    rfl
  · change execCompr r1 r2 s = _
    rw [execCompr, regRead_of_registerValue value, regRead_illegal s illegal]
    rfl

end Sys2Proof.Claims
end

section
/-!
PROOFS. The faults of RD and WD (O33), and what a step and a run may do to the record of a device (O45, O52).
-/

namespace Sys2Proof.Claims

open Sys2Proof.Machine Sys2Proof.Safety Sys2Proof.Laws

/-! ## Faults -/

/-- RD and WD check availability before they look at the direction (R161, R162, R243). -/
theorem deviceChecked_unavailable {s : State} {id : Byte} (other : DeviceUse) (unavailable : (s.device id).avail = false) :
    deviceChecked s id other = .error (.deviceUnavailable id) := by
  simp [deviceChecked, unavailable]

theorem deviceChecked_conflict {s : State} {id : Byte} {other : DeviceUse} (available : (s.device id).avail = true)
    (conflict : (s.device id).used = other) : deviceChecked s id other = .error (.deviceDirectionConflict id) := by
  simp [deviceChecked, available, conflict]

/-- RD whose checks fail takes their fault (R161, R281). -/
theorem readDevice_checks {d : MemOperand} {s : State} {a : Word} {id : Byte} {e : Exception}
    (named : deviceAt d s a id = true) (checks : deviceChecked s id .write = .error e) :
    readDevice d s = .next (s.raise e) := by
  rw [readDevice_of_deviceAt named, devRead, checks, complete_error]

/-- WD whose checks fail takes their fault (R162, R281). -/
theorem writeDevice_checks {d : MemOperand} {s : State} {a : Word} {id : Byte} {e : Exception}
    (named : deviceAt d s a id = true) (checks : deviceChecked s id .read = .error e) :
    writeDevice d s = .next (s.raise e) := by
  rw [writeDevice_of_deviceAt named, devWrite, checks, complete_error]

/-- Settles O33: both formats of RD and of WD take the fault of the check they fail. -/
theorem deviceFaults : Obligations.DeviceFaults := by
  intro d s a id named
  refine ⟨fun unavailable => ?_, fun available written => ?_, fun available read => ?_⟩
  · have reads := readDevice_checks named (deviceChecked_unavailable .write unavailable)
    have writes := writeDevice_checks named (deviceChecked_unavailable .read unavailable)
    exact ⟨reads, reads, writes, writes⟩
  · have reads := readDevice_checks named (deviceChecked_conflict available written)
    exact ⟨reads, reads⟩
  · have writes := writeDevice_checks named (deviceChecked_conflict available read)
    exact ⟨writes, writes⟩

/-! ## The record of a device across an instruction -/

/-- All that instruction `i`, which leaves `a` in A, can do to a device's record: nothing but mark a use or count a draw, move
the cursor past a byte that RD put in A, or append a byte (R160 to R162, R165). -/
inductive DeviceChange (i : Instr) (old : Device) (a : Word) : Device → Prop where
  | quiet (used : DeviceUse) (polls : Nat) : DeviceChange i old a { old with used := used, polls := polls }
  | consumed (v : Byte) (name : i.mnemonic = some .rd) (atCursor : old.input[old.rpos]? = some v)
      (inA : a = v.setWidth 24) : DeviceChange i old a { old with rpos := old.rpos + 1, used := .read }
  | appended (v : Byte) : DeviceChange i old a { old with out := old.out ++ [v], used := .write }

theorem device_of_dev_eq {s t : State} (same : t.dev = s.dev) (id : Byte) : t.device id = s.device id := by
  rw [State.device, same]; rfl

theorem deviceChange_of_dev_eq {i : Instr} {s t : State} {a : Word} (same : t.dev = s.dev) (id : Byte) :
    DeviceChange i (s.device id) a (t.device id) := by
  rw [device_of_dev_eq same]
  exact .quiet _ _

/-- Replacing one device's record changes no other device's. -/
theorem deviceChange_of_setDevice {i : Instr} {s t : State} {a : Word} {id : Byte} {record : Device}
    (changed : DeviceChange i (s.device id) a record) (replaced : t.dev = (s.setDevice id record).dev) (other : Byte) :
    DeviceChange i (s.device other) a (t.device other) := by
  rw [device_of_dev_eq replaced, State.device_setDevice]
  split
  next same => rw [same]; exact changed
  next => exact .quiet _ _

theorem devProbe_deviceChange (i : Instr) (s : State) (a : Word) (id other : Byte) :
    DeviceChange i (s.device other) a ((devProbe s id).device other) := by
  rcases devProbe_cases s id with ⟨-, eq⟩ | ⟨-, eq⟩
  · exact deviceChange_of_dev_eq (congrArg State.dev eq) other
  · exact deviceChange_of_setDevice (.quiet _ _) (by rw [eq]; rfl) other

theorem devRead_deviceChange {i : Instr} {s t : State} {id : Byte} (name : i.mnemonic = some .rd)
    (did : devRead s id = .ok t) (other : Byte) : DeviceChange i (s.device other) t.regs.a (t.device other) := by
  obtain ⟨-, -, ⟨v, atCursor, eq⟩ | ⟨-, eq⟩⟩ := devRead_ok did
  · exact deviceChange_of_setDevice (.consumed v name atCursor (by rw [eq]; rfl)) (by rw [eq]; rfl) other
  · exact deviceChange_of_setDevice (.quiet _ _) (by rw [eq]; rfl) other

/-- Every instruction changes every device's record in one of these ways. -/
theorem exec_deviceChange {i : Instr} {s t : State} (h : exec i s = .next t) (id : Byte) :
    DeviceChange i (s.device id) t.regs.a (t.device id) := by
  rcases exec_cases h with ⟨e, eq⟩ | effect
  · exact deviceChange_of_dev_eq (congrArg State.dev eq) id
  cases effect with
  | clear _ _ _ _ _ eq | compr _ _ _ _ _ eq | tixr _ _ _ _ eq | loadA _ _ eq | loadT _ _ eq | compare _ _ _ eq
  | jump _ _ eq | stay _ eq | link _ _ eq | ret _ eq => exact deviceChange_of_dev_eq (congrArg State.dev eq) id
  | storeWord a v name wrote => exact deviceChange_of_dev_eq (congrArg State.dev (memWriteWord_ok wrote)) id
  | storeByte a v name wrote => exact deviceChange_of_dev_eq (congrArg State.dev (memWriteByte_ok wrote)) id
  | test d id' name operand device eq => rw [eq]; exact devProbe_deviceChange i s _ id' id
  | read d id' name operand device did => exact devRead_deviceChange name did id
  | write d id' v name operand device did =>
    obtain ⟨-, -, eq⟩ := devWrite_ok did
    exact deviceChange_of_setDevice (.appended v) (congrArg State.dev eq) id

/-! ## The record of a device across a step -/

/-- The end of a step leaves every device (R276). -/
theorem device_sentinelHalt_countStep (u : State) (id : Byte) : (sentinelHalt u.countStep).device id = u.device id :=
  device_of_dev_eq (sentinelHalt_dev u.countStep) id

/-- A step that faults before dispatch leaves every device; one that executes an instruction does what the instruction does. -/
theorem step_device {s t : State} (stepped : step s = .next t) (id : Byte) :
    t.device id = s.device id ∨ ∃ i, fetch s = .run i ∧ DeviceChange i (s.device id) t.regs.a (t.device id) := by
  obtain ⟨-, ⟨e, -, eq⟩ | ⟨i, u, found, executed, eq⟩⟩ := step_cases stepped
  · exact .inl (by rw [eq]; rfl)
  · rw [eq, device_sentinelHalt_countStep, sentinelHalt_regs, State.countStep_regs]
    exact .inr ⟨i, found, exec_deviceChange executed id⟩

/-- The end of a step keeps a fault that the instruction took (R275, R276). -/
theorem faulted_sentinelHalt_countStep {u : State} (faulted : Faulted u) : Faulted (sentinelHalt u.countStep) := by
  obtain ⟨e, status⟩ := faulted
  rcases sentinelHalt_cases u.countStep with ⟨running, -, -⟩ | ⟨-, same⟩
  · rw [State.countStep_status, status] at running; cases running
  · exact ⟨e, by rw [same]; exact status⟩

/-- RD has one opcode (R93, R161). -/
theorem opcode_of_rd {op : Byte} (name : Mnemonic.ofOpcode op = some .rd) : op = 0xD8#8 := by
  revert op; decide

/-- Both formats of RD are `readDevice` (R161). -/
theorem exec_of_rd {i : Instr} {d : MemOperand} (name : i.mnemonic = some .rd) (operand : i.operands = .mem d) (s : State) :
    exec i s = readDevice d s := by
  obtain ⟨row, found, makes⟩ := opcodeRow_opcode i
  rw [opcode_of_rd name] at found
  obtain rfl : OpcodeRow.threeFour .rd .rdE = row := Option.some.inj found
  cases makes with
  | three format operand' made | four format operand' made =>
    obtain rfl := Operands.mem.inj (operand'.symm.trans operand)
    rw [← made]
    rfl

/-- A completed RD of a device with a byte at the cursor moves the cursor on by one (R161, R165). -/
theorem readDevice_advances {d : MemOperand} {s t : State} {a : Word} {id v : Byte} (named : deviceAt d s a id = true)
    (reads : readDevice d s = .next t) (completed : ¬ Faulted t)
    (atCursor : (s.device id).input[(s.device id).rpos]? = some v) : (t.device id).rpos = (s.device id).rpos + 1 := by
  rw [readDevice_of_deviceAt named] at reads
  rcases complete_cases reads with did | ⟨e, -, eq⟩
  · obtain ⟨-, -, ⟨w, -, eq⟩ | ⟨atEnd, -⟩⟩ := devRead_ok did
    · rw [eq]
      exact congrArg Device.rpos (State.device_setDevice_same s id _)
    · rw [atCursor] at atEnd; cases atEnd
  · exact absurd ⟨e, by rw [eq]; rfl⟩ completed

/-- The step of an RD that completes with a byte at the cursor moves the cursor on by one (R165). -/
theorem step_of_rd_advances {s t : State} {i : Instr} {d : MemOperand} {a : Word} {id v : Byte}
    (stepped : step s = .next t) (found : fetch s = .run i) (name : i.mnemonic = some .rd) (operand : i.operands = .mem d)
    (named : deviceAt d (dispatched s i) a id = true) (completed : ¬ Faulted t)
    (atCursor : (s.device id).input[(s.device id).rpos]? = some v) : (t.device id).rpos = (s.device id).rpos + 1 := by
  obtain ⟨-, ⟨e, stopped, -⟩ | ⟨j, u, found', executed, eq⟩⟩ := step_cases stepped
  · rw [found] at stopped; cases stopped
  · obtain rfl : i = j := Fetched.run.inj (found.symm.trans found')
    rw [exec_of_rd name operand] at executed
    rw [eq] at completed
    have before : (dispatched s i).device id = s.device id := device_of_dev_eq (dispatched_dev s i) id
    rw [← before] at atCursor ⊢
    rw [eq, device_sentinelHalt_countStep]
    exact readDevice_advances named executed (mt faulted_sentinelHalt_countStep completed) atCursor

/-- Settles O45: what the step's instruction can do to the record, and, for the converse, what an RD that completes does. -/
theorem deviceCursorsOnlyAdvance : Obligations.DeviceCursorsOnlyAdvance := by
  intro s t id stepped
  have advances := fun i d a v => step_of_rd_advances (i := i) (d := d) (a := a) (id := id) (v := v) stepped
  rcases step_device stepped id with same | ⟨i, found, change⟩
  · exact ⟨by rw [same], by rw [same], .inl (by rw [same]), advances, .inl (by rw [same])⟩
  · generalize t.device id = new at change advances ⊢
    cases change with
    | quiet used polls => exact ⟨rfl, rfl, .inl rfl, advances, .inl rfl⟩
    | consumed v name atCursor inA =>
      have value : t.regs.a.toNat = v.toNat := by rw [inA, BitVec.toNat_setWidth_of_le (by decide)]
      exact ⟨rfl, rfl, .inr ⟨rfl, i, v, found, name, atCursor, value⟩, advances, .inl rfl⟩
    | appended v => exact ⟨rfl, rfl, .inl rfl, advances, .inr ⟨v, rfl⟩⟩

/-! ## The record of a device along a run -/

/-- One step's part of a device's history (R165, R166, R169). -/
theorem step_device_grows {s t : State} (stepped : step s = .next t) (id : Byte) :
    (s.device id).out <+: (t.device id).out ∧ (s.device id).rpos ≤ (t.device id).rpos ∧
      (t.device id).avail = (s.device id).avail ∧ (t.device id).input = (s.device id).input := by
  obtain ⟨avail, input, cursor, -, output⟩ := deviceCursorsOnlyAdvance s t id stepped
  refine ⟨?_, ?_, avail, input⟩
  · rcases output with same | ⟨v, appended⟩
    · exact ⟨[], by rw [same, List.append_nil]⟩
    · exact ⟨[v], appended.symm⟩
  · rcases cursor with same | ⟨moved, -⟩
    · exact same.ge
    · omega

/-- Settles O52, by induction on the run. -/
theorem deviceHistoryGrows : Obligations.DeviceHistoryGrows := by
  intro s t id reached
  induction reached with
  | here => exact ⟨⟨[], List.append_nil _⟩, le_rfl, rfl, rfl⟩
  | step _ stepped ih =>
    obtain ⟨earlierOut, earlierCursor, earlierAvail, earlierInput⟩ := ih
    obtain ⟨out, cursor, avail, input⟩ := step_device_grows stepped id
    exact ⟨earlierOut.trans out, earlierCursor.trans cursor, avail.trans earlierAvail, input.trans earlierInput⟩

end Sys2Proof.Claims
end

section
/-!
PROOFS. The fault of the instructions without semantics (O28).
-/

namespace Sys2Proof.Claims

open Sys2Proof.Machine

/-! ## The length, by the operands -/

/-- The length of an instruction that carries these operands (R72 to R74). -/
def lengthWith : Operands → Nat
  | .none => 1
  | .regs _ _ => 2
  | .mem d => d.length

/-- In a well-formed instruction the operands tell the format, and so the length (R72 to R74). -/
theorem lengthWith_operands {i : Instr} (wf : i.wellFormed = true) : lengthWith i.operands = i.length := by
  unfold Instr.wellFormed at wf
  split at wf
  next format operands => rw [Instr.length, format, operands]; rfl
  next format operands => rw [Instr.length, format, operands]; rfl
  next d format operands => rw [Instr.length, format, operands, lengthWith, MemOperand.length, eq_of_beq wf]
  next d format operands => rw [Instr.length, format, operands, lengthWith, MemOperand.length, eq_of_beq wf]
  next => cases wf

/-! ## The fault -/

/-- The fault takes the instruction's address, which is PCnext less the length (R10, R180), and changes the status alone (R244). -/
theorem unknownMnemonic_eq (length : Nat) (opcode : Byte) (s : State) :
    unknownMnemonic length opcode s =
      .next { s with status := .haltedErr (.unknownMnemonic (s.regs.pc - BitVec.ofNat 24 length) opcode) } := rfl

/-- A row is either one of the 35 of the mnemonics with semantics or one of the 76 whose meaning is the fault (R180, R221). -/
theorem exec_without_semantics {i : Instr} (without : ∀ m ∈ implemented, i.mnemonic ≠ some m) (s : State) :
    exec i s = unknownMnemonic (lengthWith i.operands) i.opcode s := by
  cases i with
  | clear | compr | tixr | lda | ldaE | ldt | ldtE | ldch | ldchE | sta | staE | stl | stlE | stx | stxE | stch | stchE
  | comp | compE | j | jE | jeq | jeqE | jlt | jltE | jsub | jsubE | rsub | rsubE | td | tdE | rd | rdE | wd | wdE =>
    exact (without _ (by decide) rfl).elim
  | _ => rfl

/-- Settles O28: the row's meaning is the fault, and the length it takes off PCnext is the instruction's own. -/
theorem unknownMnemonicResult : Obligations.UnknownMnemonicResult := by
  intro i s wf without
  rw [exec_without_semantics without, lengthWith_operands wf, unknownMnemonic_eq]

end Sys2Proof.Claims
end

section
/-!
PROOFS. How a step and a run end: Halted is terminal (O42), Halted(ok) is the sentinel's (O43), runToHalt is the rule R279 gives
(O59), and within its limit it ends (O53). The facts about a run are proved of the rule, which has no fuel, and carried over.
-/

namespace Sys2Proof.Safety

open Sys2Proof.Machine

/-! ## Halted -/

theorem enabled_iff_not_halted (st : Status) : st.enabled = true ↔ st.halted = false := by simp [Status.halted]

/-- A step is taken from no halted state (R245, R276). -/
theorem step_of_halted {s : State} (halted : s.status.halted = true) : step s = .fault .halted := by
  have disabled : s.status.enabled = false := by simpa [Status.halted] using halted
  simp [step, disabled]

theorem not_halted_of_steps {s t : State} (stepped : Steps s t) : s.status.halted = false :=
  (enabled_iff_not_halted s.status).mp (step_cases stepped).left

/-- Settles O42: neither kind of Halted enables a step. -/
theorem haltedIsTerminal : Obligations.HaltedIsTerminal := by
  intro s ended
  have stuck : step s = .fault .halted := step_of_halted ((halted_iff s.status).mpr ended)
  refine ⟨stuck, fun t stepped => ?_⟩
  rw [Steps, stuck] at stepped
  cases stepped

/-! ## How a step ends -/

/-- A step ends in one of three ways: with a fault, at the sentinel, or running on (R274, R275). -/
theorem step_end_cases {s t : State} (stepped : step s = .next t) :
    Faulted t ∨ (t.status = .haltedOk ∧ t.regs.pc = Config.haltPc) ∨ (t.status = .running ∧ t.regs.pc ≠ Config.haltPc) := by
  obtain ⟨-, ⟨e, -, eq⟩ | ⟨i, u, -, executed, eq⟩⟩ := step_cases stepped
  · exact .inl ⟨e, congrArg State.status eq⟩
  · rw [eq]
    obtain ⟨-, -, running | faulted⟩ := exec_frame executed
    · rcases sentinelHalt_cases u.countStep with ⟨-, atSentinel, halts⟩ | ⟨continues, same⟩
      · rw [halts]
        exact .inr (.inl ⟨rfl, atSentinel⟩)
      · rw [same]
        exact .inr (.inr ⟨running, fun atSentinel => continues ⟨running, atSentinel⟩⟩)
    · exact .inl (Claims.faulted_sentinelHalt_countStep faulted)

theorem not_faulted_of_status {t : State} {st : Status} (status : t.status = st) (noFault : st.faulted = none) :
    ¬ Faulted t := by
  rintro ⟨e, err⟩
  rw [← status, err] at noFault
  cases noFault

/-- Settles O43, by the three ways a step ends. -/
theorem haltedOkExactlyAtTheSentinel : Obligations.HaltedOkExactlyAtTheSentinel := by
  intro s t stepped
  rcases step_end_cases stepped with faulted | ⟨ok, atSentinel⟩ | ⟨running, elsewhere⟩
  · have notOk : t.status ≠ .haltedOk := fun ok => not_faulted_of_status ok rfl faulted
    exact ⟨iff_of_false notOk fun ⟨noFault, _⟩ => noFault faulted, fun _ noFault => absurd faulted noFault⟩
  · exact ⟨iff_of_true ok ⟨not_faulted_of_status ok rfl, atSentinel⟩, fun notOk => absurd ok notOk⟩
  · exact ⟨iff_of_false (by simp [running]) fun ⟨_, atSentinel⟩ => elsewhere atSentinel, fun _ _ => running⟩

/-- Each step counts one, but for a fault before dispatch, which ends the run (R276, R277). -/
theorem step_counts_or_halts {s t : State} (stepped : step s = .next t) :
    t.steps = s.steps + 1 ∨ (t.steps = s.steps ∧ t.status.halted = true) := by
  obtain ⟨counted, -⟩ := Claims.stepsAreCounted s t stepped
  obtain ⟨-, ⟨e, -, eq⟩ | ⟨i, -, found, -⟩⟩ := step_cases stepped
  · exact .inr (by rw [eq]; exact ⟨rfl, rfl⟩)
  · exact .inl (counted ⟨i, found⟩)

/-! ## runToHalt and the rule -/

/-- What a call ends with, the rule returns; the call used a round per step and one more (R279). -/
theorem runsToHalt_of_ended {limit fuel : Nat} {s u : State} {results : List StepResult}
    (ended : runToHalt limit fuel s = .ended results u) : RunsToHalt limit s results u ∧ results.length < fuel := by
  induction fuel generalizing s results with
  | zero => cases ended
  | succ fuel ih =>
    obtain ⟨less, fuelEq, first⟩ := runToHalt_ended_cases ended
    rcases first with ⟨halted, rfl, rfl⟩ | ⟨running, reached, rfl, rfl⟩ | ⟨t, rest, running, short, stepped, rfl, later⟩
    · exact ⟨.halted halted, Nat.succ_pos fuel⟩
    · exact ⟨.limit running reached, Nat.succ_pos fuel⟩
    · obtain rfl := Nat.succ.inj fuelEq
      obtain ⟨returns, enough⟩ := ih later
      exact ⟨.step running short stepped returns, Nat.succ_lt_succ enough⟩

/-- What the rule returns, a call ends with that has fuel for a round per step and one more (R279). -/
theorem ended_of_runsToHalt {limit fuel : Nat} {s u : State} {results : List StepResult}
    (returns : RunsToHalt limit s results u) (enough : results.length < fuel) :
    runToHalt limit fuel s = .ended results u := by
  obtain ⟨fuel, rfl⟩ := Nat.exists_eq_succ_of_ne_zero (Nat.ne_zero_of_lt enough)
  induction returns generalizing fuel with
  | halted halted => exact runToHalt_halted halted
  | limit running reached => exact runToHalt_limit running reached
  | step running short stepped _ ih =>
    obtain ⟨fuel, rfl⟩ := Nat.exists_eq_succ_of_ne_zero (Nat.ne_zero_of_lt (Nat.lt_of_succ_lt_succ enough))
    rw [runToHalt_next running short stepped, ih fuel (Nat.lt_of_succ_lt_succ enough)]
    rfl

/-- Settles O59: the rule's steps say how much fuel is enough, and more fuel than that is enough too. -/
theorem runToHaltFollowsTheRule : Obligations.RunToHaltFollowsTheRule := by
  constructor
  · intro limit s u results
    exact ⟨fun ⟨_, ended⟩ => (runsToHalt_of_ended ended).left, fun returns =>
      ⟨results.length + 1, ended_of_runsToHalt returns (Nat.lt_succ_self _)⟩⟩
  · intro limit fuel more s u results ended le
    obtain ⟨returns, enough⟩ := runsToHalt_of_ended ended
    exact ended_of_runsToHalt returns (enough.trans_le le)

/-! ## The rule within its limit -/

/-- The rule returns from a state with the invariant that has not passed the limit: each round brings it nearer or ends it
(R279). -/
theorem exists_runsToHalt {limit : Nat} {s : State} (inv : Inv s) (within : s.steps ≤ limit) :
    ∃ results u, RunsToHalt limit s results u := by
  induction remaining : limit - s.steps generalizing s with
  | zero =>
    cases halted : s.status.halted with
    | true => exact ⟨_, _, .halted halted⟩
    | false => exact ⟨_, _, .limit halted (by omega)⟩
  | succ left ih =>
    cases halted : s.status.halted with
    | true => exact ⟨_, _, .halted halted⟩
    | false =>
      obtain ⟨t, stepped⟩ := enabledStateSteps s inv ((enabled_iff_not_halted _).mpr halted)
      have short : s.steps ≠ limit := by omega
      obtain ⟨results, u, later⟩ : ∃ results u, RunsToHalt limit t results u := by
        rcases step_counts_or_halts stepped with counted | ⟨-, ended⟩
        · exact ih (stepKeepsInvariant s t inv stepped) (by omega) (by omega)
        · exact ⟨_, _, .halted ended⟩
      exact ⟨_, u, .step halted short stepped later⟩

/-- What the rule returns is halted: the end of its steps, or the state in which they met the limit (R236, R279). -/
theorem runsToHalt_end {limit : Nat} {s u : State} {results : List StepResult} (returns : RunsToHalt limit s results u) :
    u.status.halted = true ∧
      (Trace s results u ∨ ∃ w, Trace s results w ∧ w.status.enabled = true ∧ w.steps = limit ∧
        u = { w with status := .haltedErr (.stepLimitExceeded limit) }) := by
  induction returns with
  | halted halted => exact ⟨halted, .inl (.here _)⟩
  | limit running reached =>
    obtain rfl := reached
    exact ⟨rfl, .inr ⟨_, .here _, (enabled_iff_not_halted _).mpr running, rfl, rfl⟩⟩
  | step _ _ stepped _ ih =>
    obtain ⟨halted, trace | ⟨w, trace, enabled, reached, eq⟩⟩ := ih
    · exact ⟨halted, .inl (.step stepped trace)⟩
    · exact ⟨halted, .inr ⟨w, .step stepped trace, enabled, reached, eq⟩⟩

/-- The rule takes no step from a halted state. -/
theorem runsToHalt_of_halted {limit : Nat} {s u : State} {results : List StepResult}
    (returns : RunsToHalt limit s results u) (halted : s.status.halted = true) : results = [] ∧ u = s := by
  cases returns with
  | halted _ => exact ⟨rfl, rfl⟩
  | limit running _ | step running _ _ _ => rw [halted] at running; cases running

/-- A run the rule began within the limit stays within it (R236). -/
theorem runsToHalt_within {limit : Nat} {s u : State} {results : List StepResult}
    (returns : RunsToHalt limit s results u) (within : s.steps ≤ limit) :
    u.steps ≤ limit ∧ results.length ≤ limit - s.steps := by
  induction returns with
  | halted _ => exact ⟨within, Nat.zero_le _⟩
  | limit _ _ => exact ⟨within, Nat.zero_le _⟩
  | step _ short stepped later ih =>
    rw [List.length_cons]
    rcases step_counts_or_halts stepped with counted | ⟨uncounted, ended⟩
    · obtain ⟨stepsWithin, resultsWithin⟩ := ih (by omega)
      exact ⟨stepsWithin, by omega⟩
    · obtain ⟨rfl, rfl⟩ := runsToHalt_of_halted later ended
      exact ⟨by omega, by rw [List.length_nil]; omega⟩

/-! ## Runs that do not halt -/

/-- No run leaves a halted state. -/
theorem trace_not_halted {s w : State} {results : List StepResult} (trace : Trace s results w)
    (enabled : w.status.enabled = true) : s.status.halted = false := by
  cases trace with
  | here => exact (enabled_iff_not_halted _).mp enabled
  | step stepped _ => exact not_halted_of_steps stepped

/-- Along a run that has not halted every step counts (R42, R276). -/
theorem trace_steps {s w : State} {results : List StepResult} (trace : Trace s results w)
    (enabled : w.status.enabled = true) : w.steps = s.steps + results.length := by
  induction trace with
  | here => rfl
  | step stepped later ih =>
    rcases step_counts_or_halts stepped with counted | ⟨-, ended⟩
    · rw [ih enabled, counted, List.length_cons]
      omega
    · rw [trace_not_halted later enabled] at ended; cases ended

/-- The rule follows a run up to the first state at the limit, and stops there (R236, R279). -/
theorem runsToHalt_of_trace {limit : Nat} {s w : State} {results : List StepResult} (trace : Trace s results w)
    (enabled : w.status.enabled = true) (reached : w.steps = limit) :
    RunsToHalt limit s results { w with status := .haltedErr (.stepLimitExceeded limit) } := by
  induction trace with
  | here s =>
    rw [← reached]
    exact .limit ((enabled_iff_not_halted _).mp enabled) rfl
  | step stepped later ih =>
    have count := trace_steps (.step stepped later) enabled
    rw [List.length_cons] at count
    exact .step (not_halted_of_steps stepped) (by omega) stepped (ih enabled reached)

/-- Settles O53: the rule returns after at most the steps the limit leaves, which the fuel suffices for. -/
theorem runToHaltTerminates : Obligations.RunToHaltTerminates := by
  intro limit fuel s inv within enough
  have ends {results : List StepResult} {u : State} (returns : RunsToHalt limit s results u) :
      runToHalt limit fuel s = .ended results u :=
    ended_of_runsToHalt returns ((runsToHalt_within returns within).right.trans_lt enough)
  refine ⟨?_, fun results w trace enabled reached => ends (runsToHalt_of_trace trace enabled reached)⟩
  obtain ⟨results, u, returns⟩ := exists_runsToHalt inv within
  obtain ⟨halted, how⟩ := runsToHalt_end returns
  obtain ⟨stepsWithin, resultsWithin⟩ := runsToHalt_within returns within
  exact ⟨results, u, ends returns, halted, stepsWithin, resultsWithin, how⟩

end Sys2Proof.Safety
end

section
/-!
PROOFS. The boundary scan is complete up to the first instruction that does not fit, and ends there (O57).
-/

namespace Sys2Proof.Machine

open Sys2Proof.Safety

/-! ## The bytes at an address have a record -/

/-- The format the scan tells from the bytes it reads is the one it read them for: byte_1 is among them, unless byte_0 alone
tells the format (R72 to R74). -/
theorem formatOf_readBytes {m : Memory} {a n : Nat} (length : lengthAt m a = n + 1) :
    formatOf (m.read a) ((m.readBytes (a + 1) n).headD 0#8) = formatOf (m.read a) (m.read (a + 1)) := by
  cases n with
  | zero =>
    have one : formatOf (m.read a) (m.read (a + 1)) = .one := by
      cases format : formatOf (m.read a) (m.read (a + 1)) with
      | one => rfl
      | two | three | four => simp [lengthAt, format, Format.length] at length
    exact Laws.formatOf_byte0_alone (.inl one) 0#8
  | succ n => rw [Memory.readBytes_succ, List.headD_cons]

/-- As many bytes as the scan's length says have a record (R91, R272). -/
theorem exists_recordOf_readBytes (m : Memory) (address : Word) (a : Nat) :
    ∃ r, recordOf address (m.readBytes a (lengthAt m a)) = .ok r := by
  obtain ⟨n, length⟩ : ∃ n, lengthAt m a = n + 1 := Nat.exists_eq_add_one.mpr (Laws.format_length_pos _)
  have long : (formatOf (m.read a) ((m.readBytes (a + 1) n).headD 0#8)).length ≤ (m.readBytes (a + 1) n).length + 1 := by
    rw [formatOf_readBytes length, Memory.length_readBytes]
    exact length.le
  obtain ⟨i, rest, decoded⟩ := Laws.decode_total long
  rw [length, Memory.readBytes_succ]
  exact ⟨_, Laws.recordOf_of_decode address decoded⟩

/-- A round at an instruction that fits records it and goes on after it (R272). -/
theorem exists_scanFrom_record {m : Memory} {extent a : Nat} (fuel : Nat) (below : a < extent)
    (code : m.read a ≠ Config.fillByte) (fits : a + lengthAt m a ≤ Config.memSize) :
    ∃ r, r.address.toNat = a ∧ r.length = lengthAt m a ∧
      scanFrom m extent (fuel + 1) a = r :: scanFrom m extent fuel (a + lengthAt m a) := by
  obtain ⟨r, found⟩ := exists_recordOf_readBytes m (BitVec.ofNat 24 a) a
  obtain ⟨-, -, length⟩ := recordOf_readBytes found
  obtain ⟨address, -⟩ := (Scanned.mk below fits found).record
  exact ⟨r, address, length, scanFrom_record below code fits found⟩

/-! ## The addresses a scan reaches -/

/-- No record of the list covers the address past the record's first byte. -/
def Uncovered (bs : List DecodedInstruction) (a : Nat) : Prop :=
  ∀ r ∈ bs, ¬(r.address.toNat < a ∧ a < r.address.toNat + r.length)

/-- The scan that records `bs` has a round at the address `a`: its records are some that end there or before, and those of a scan
from `a` on (R272). -/
def ScanReaches (m : Memory) (extent : Nat) (bs : List DecodedInstruction) (a : Nat) : Prop :=
  ∃ earlier fuel, bs = earlier ++ scanFrom m extent (fuel + 1) a ∧ ∀ r ∈ earlier, r.address.toNat + r.length ≤ a

section
variable {m : Memory} {extent a : Nat} {bs : List DecodedInstruction}

theorem scanReaches_scanFrom (m : Memory) (extent fuel a : Nat) : ScanReaches m extent (scanFrom m extent (fuel + 1) a) a :=
  ⟨[], fuel, rfl, by simp⟩

theorem ScanReaches.cons {r : DecodedInstruction} (reached : ScanReaches m extent bs a)
    (before : r.address.toNat + r.length ≤ a) : ScanReaches m extent (r :: bs) a := by
  obtain ⟨earlier, fuel, rfl, ends⟩ := reached
  exact ⟨r :: earlier, fuel, rfl, List.forall_mem_cons.mpr ⟨before, ends⟩⟩

/-- The earlier records end by the address, and the later ones start no earlier. -/
theorem ScanReaches.uncovered (reached : ScanReaches m extent bs a) : Uncovered bs a := by
  obtain ⟨earlier, fuel, rfl, ends⟩ := reached
  refine List.forall_mem_append.mpr ⟨fun r member => ?_, fun r member => ?_⟩
  · have := ends r member
    omega
  · have := le_address_of_boundsOkFrom (boundsOkFrom_scanFrom m extent (fuel + 1) a) r member
    omega

/-- An instruction that fits at an address the scan reaches is recorded (R272). -/
theorem ScanReaches.record (reached : ScanReaches m extent bs a) (below : a < extent) (code : m.read a ≠ Config.fillByte)
    (fits : a + lengthAt m a ≤ Config.memSize) : ∃ r ∈ bs, r.address.toNat = a := by
  obtain ⟨earlier, fuel, rfl, -⟩ := reached
  obtain ⟨r, address, -, made⟩ := exists_scanFrom_record fuel below code fits
  exact ⟨r, by simp [made], address⟩

/-- At an instruction that does not fit the scan ends (R272). -/
theorem ScanReaches.stop (reached : ScanReaches m extent bs a) (code : m.read a ≠ Config.fillByte)
    (tooLong : ¬ a + lengthAt m a ≤ Config.memSize) : ∀ r ∈ bs, r.address.toNat < a := by
  obtain ⟨earlier, fuel, rfl, ends⟩ := reached
  rw [scanFrom_stop code (Nat.lt_of_not_le tooLong), List.append_nil]
  intro r member
  have positive : 0 < r.length := Laws.format_length_pos _
  have := ends r member
  omega

end

/-- A scan reaches every uncovered address of the extent, or an instruction before it that does not fit (R272). -/
theorem scanFrom_reaches {m : Memory} {extent fuel low a : Nat} (enough : extent ≤ low + fuel) (atLeast : low ≤ a)
    (below : a < extent) (uncovered : Uncovered (scanFrom m extent fuel low) a) :
    ∃ b, low ≤ b ∧ b ≤ a ∧ ScanReaches m extent (scanFrom m extent fuel low) b ∧
      (b = a ∨ m.read b ≠ Config.fillByte ∧ ¬ b + lengthAt m b ≤ Config.memSize) := by
  induction fuel generalizing low with
  | zero => omega
  | succ fuel ih =>
    rcases atLeast.eq_or_lt with rfl | before
    · exact ⟨low, le_rfl, le_rfl, scanReaches_scanFrom m extent fuel low, .inl rfl⟩
    have lowBelow : low < extent := before.trans below
    by_cases fill : m.read low = Config.fillByte
    · rw [scanFrom_fill lowBelow fill] at uncovered ⊢
      obtain ⟨b, after, rest⟩ := ih (by omega) before uncovered
      exact ⟨b, by omega, rest⟩
    by_cases fits : low + lengthAt m low ≤ Config.memSize
    · obtain ⟨r, address, length, made⟩ := exists_scanFrom_record fuel lowBelow fill fits
      rw [made] at uncovered ⊢
      obtain ⟨notInside, uncoveredLater⟩ := List.forall_mem_cons.mp uncovered
      have positive : 0 < lengthAt m low := Laws.format_length_pos _
      obtain ⟨b, after, upTo, reached, how⟩ := ih (by omega) (by omega) uncoveredLater
      exact ⟨b, by omega, upTo, reached.cons (by omega), how⟩
    · exact ⟨low, le_rfl, atLeast, scanReaches_scanFrom m extent fuel low, .inr ⟨fill, fits⟩⟩

/-- Settles O57: the scan reaches the address, where it makes a record or ends, or has ended before it at an instruction that
does not fit. -/
theorem boundaryScanIsComplete : Obligations.BoundaryScanIsComplete := by
  intro m extent
  have reaches {a : Nat} (below : a < extent) (uncovered : Uncovered (boundaryScan m extent) a) :=
    scanFrom_reaches (low := 0) (Nat.zero_add extent).ge (Nat.zero_le a) below uncovered
  refine ⟨fun a below code uncovered fits => ?_, fun a below code uncovered tooLong => ?_⟩
  · obtain ⟨b, -, upTo, reached, rfl | ⟨codeAt, tooLong⟩⟩ := reaches below uncovered
    · exact reached.record below code (fits b le_rfl code uncovered)
    · exact absurd (fits b upTo codeAt reached.uncovered) tooLong
  · obtain ⟨b, -, upTo, reached, rfl | ⟨codeAt, tooLongAt⟩⟩ := reaches below uncovered
    · exact reached.stop code tooLong
    · exact fun r member => (reached.stop codeAt tooLongAt r member).trans_le upTo

end Sys2Proof.Machine
end
